-- ==== Sys2Proof/Word.lean ====
section
/-! DEFINITION. The plain types every other file speaks in: a byte, the two banks, a value kept once per bank,
a pin, and what the pin environment drives onto a pin. -/

namespace Sys2Proof

/-- R9: every register value is an unsigned 8-bit number. -/
abbrev Byte := BitVec 8

/-- R12, R14: "one of two 8-pin groups" (A: pins 0 to 7, B: pins 8 to 15). -/
inductive Bank where
  | bankA
  | bankB
  deriving DecidableEq, Repr

/-- A value kept once per bank, as every bank-paired register is (R14, R16). -/
structure Banked (α : Type) where
  a : α
  b : α
  deriving DecidableEq, Repr

/-- R6, R15: a valid pin index, 0 to 15. -/
abbrev Pin := Fin 16

/-- R14: the external drive of a pin: low, high, or not driven. -/
inductive Drive where
  | d0
  | d1
  | z
  deriving DecidableEq, Repr

end Sys2Proof
end

