-- ==== Sys2Proof/Config.lean ====
section
/-! DEFINITION. What an implementation fixes: the register names and the map from them to addresses (R16, R53), the
parameters the spec says the model takes as arguments (R7), and the free values, which have no body. -/

namespace Sys2Proof

/-- R16: the nine kinds of bank-paired register. -/
inductive Kind where
  | iodir
  | gppu
  | gpio
  | olat
  | gpinten
  | intcon
  | defval
  | intf
  | intcap
  deriving DecidableEq, Repr

/-- R16: the nineteen byte registers: nine kinds for each bank, and the shared control register (C1). -/
inductive Reg where
  | paired (k : Kind) (b : Bank)
  | iocon
  deriving DecidableEq, Repr

/-- R7, R53: `REGMAP`, the address of each register; a parameter of the model. -/
structure RegMap where
  iodir : Banked Byte
  gppu : Banked Byte
  gpio : Banked Byte
  olat : Banked Byte
  gpinten : Banked Byte
  intcon : Banked Byte
  defval : Banked Byte
  intf : Banked Byte
  intcap : Banked Byte
  iocon : Byte
  deriving DecidableEq, Repr

/-- R7, R102, R103: the meaning of the comparison with the reference (C7, D5). -/
inductive TriggerSense where
  | edgeToRef
  | levelMismatch
  deriving DecidableEq, Repr

/-- R7, R107: the effect of a write to the flag register (D10). -/
inductive IntfWrite where
  | clearOnZero
  | ignored
  deriving DecidableEq, Repr

/-- R7: the open parameters a step reads. A run keeps them as it was launched with them. -/
structure Params where
  regmap : RegMap
  triggerSense : TriggerSense
  intfWrite : IntfWrite
  iocOnOutputs : Bool
  deriving DecidableEq, Repr

/-- FREE VALUE: the one-bit draw with number n (floating or contended level R96, bit 0 of IOCON R85, whether a failed
transaction reached the chip R135). Nothing constrains it. DESIGN CHOICE, safe: assumption 2. -/
opaque Config.freeBit : Nat → Bool

/-- FREE VALUE: the eight one-bit draws that start at number n, as a byte (the unflagged bits of a capture read, R91).
Nothing constrains it. DESIGN CHOICE, safe: assumption 2. -/
opaque Config.freeByte : Nat → Byte

/-- R7, D6: `IOC_ON_OUTPUTS`, OPEN: whether an output-configured pin can trigger. No body: assumption 11. -/
opaque Config.iocOnOutputs : Bool

/-- R7, R35, D22: `CHIP_ADDR`, OPEN: the 7-bit address `open` selects. No rule depends on it: assumption 12. -/
opaque Config.chipAddr : BitVec 7

end Sys2Proof
end

