-- ==== Sys2Proof/Syntax.lean ====
section
/-! DEFINITION. The instructions: one constructor per row of spec/opcode_table.json (R54). -/

namespace Sys2Proof

/-- R54: nineteen reads, fifteen writes of a byte `d`, three events on a pin `p`. -/
inductive Instr where
  /-- RD_IODIRA, R61. -/
  | rdIodirA
  /-- RD_IODIRB, R63. -/
  | rdIodirB
  /-- RD_GPINTENA, R73. -/
  | rdGpintenA
  /-- RD_GPINTENB, R75. -/
  | rdGpintenB
  /-- RD_DEFVALA, R81. -/
  | rdDefvalA
  /-- RD_DEFVALB, R83. -/
  | rdDefvalB
  /-- RD_INTCONA, R77. -/
  | rdIntconA
  /-- RD_INTCONB, R79. -/
  | rdIntconB
  /-- RD_IOCON, R85. -/
  | rdIocon
  /-- RD_GPPUA, R65. -/
  | rdGppuA
  /-- RD_GPPUB, R67. -/
  | rdGppuB
  /-- RD_INTFA, R87. -/
  | rdIntfA
  /-- RD_INTFB, R89. -/
  | rdIntfB
  /-- RD_INTCAPA, R91. -/
  | rdIntcapA
  /-- RD_INTCAPB, R92. -/
  | rdIntcapB
  /-- RD_GPIOA, R93. -/
  | rdGpioA
  /-- RD_GPIOB, R94. -/
  | rdGpioB
  /-- RD_OLATA, R69. -/
  | rdOlatA
  /-- RD_OLATB, R71. -/
  | rdOlatB
  /-- WR_IODIRA, R62. -/
  | wrIodirA (d : Byte)
  /-- WR_IODIRB, R64. -/
  | wrIodirB (d : Byte)
  /-- WR_GPINTENA, R74. -/
  | wrGpintenA (d : Byte)
  /-- WR_GPINTENB, R76. -/
  | wrGpintenB (d : Byte)
  /-- WR_DEFVALA, R82. -/
  | wrDefvalA (d : Byte)
  /-- WR_DEFVALB, R84. -/
  | wrDefvalB (d : Byte)
  /-- WR_INTCONA, R78. -/
  | wrIntconA (d : Byte)
  /-- WR_INTCONB, R80. -/
  | wrIntconB (d : Byte)
  /-- WR_IOCON, R86. -/
  | wrIocon (d : Byte)
  /-- WR_GPPUA, R66. -/
  | wrGppuA (d : Byte)
  /-- WR_GPPUB, R68. -/
  | wrGppuB (d : Byte)
  /-- WR_INTFA, R88. -/
  | wrIntfA (d : Byte)
  /-- WR_INTFB, R90. -/
  | wrIntfB (d : Byte)
  /-- WR_OLATA, R70. -/
  | wrOlatA (d : Byte)
  /-- WR_OLATB, R72. -/
  | wrOlatB (d : Byte)
  /-- EV_D0, R98. -/
  | evD0 (p : Pin)
  /-- EV_D1, R99. -/
  | evD1 (p : Pin)
  /-- EV_Z, R100. -/
  | evZ (p : Pin)
  deriving DecidableEq, Repr

end Sys2Proof
end

