-- ==== Sys2Proof/WellFormed.lean ====
section
/-! DEFINITION. Which instructions are legal encodings (R54, R56). -/

namespace Sys2Proof

/-- R54, R56: every operand of every instruction is legal, but that a write to the control register has `DATA[7] = 0`
(a write of 1 is refused, R86). A pin index cannot be invalid (R52). -/
def Instr.wellFormed : Instr → Bool
  | .rdIodirA | .rdIodirB | .rdGpintenA | .rdGpintenB | .rdDefvalA
  | .rdDefvalB | .rdIntconA | .rdIntconB | .rdIocon | .rdGppuA
  | .rdGppuB | .rdIntfA | .rdIntfB | .rdIntcapA | .rdIntcapB
  | .rdGpioA | .rdGpioB | .rdOlatA | .rdOlatB => true
  | .wrIodirA _ | .wrIodirB _ | .wrGpintenA _ | .wrGpintenB _ | .wrDefvalA _
  | .wrDefvalB _ | .wrIntconA _ | .wrIntconB _ | .wrGppuA _ | .wrGppuB _
  | .wrIntfA _ | .wrIntfB _ | .wrOlatA _ | .wrOlatB _ | .evD0 _
  | .evD1 _ | .evZ _ => true
  | .wrIocon d => !d.getLsbD 7

/-- `wellFormed` as a proposition. -/
abbrev Instr.WellFormed (i : Instr) : Prop := i.wellFormed = true

end Sys2Proof
end

