-- ==== Sys2Proof/Decode.lean ====
section
/-! DEFINITION. The register map, the decoder and the encoder (R49 to R59). Every word of either format is an
instruction or is refused by name: the decoder is total (R57). -/

namespace Sys2Proof

/-- R134: why a request is refused. -/
inductive RefuseReason where
  /-- R55: `ADDR` names no decoded register. -/
  | unmappedRegister (a : Byte)
  /-- R56: a read with `DATA ≠ 0`, or an event with `E[7:6] ≠ 00` or `DRV = 11`; the word, as a number. -/
  | reservedField (w : Nat)
  /-- R56, R59: a write to GPIO or INTCAP. -/
  | writeToReadOnly (a : Byte)
  /-- R86: a write to IOCON with `DATA[7] = 1`. -/
  | reservedConfig (d : Byte)
  /-- R39: more than one register in one transaction. -/
  | multiByteTransfer
  deriving DecidableEq, Repr

/-- R51: a word in the format its issuer selects: `TX` (R49, 17 bits) or `EV` (R50, 8 bits). -/
inductive Word where
  | tx (w : BitVec 17)
  | ev (w : BitVec 8)
  deriving DecidableEq, Repr

/-- What the decoder answers: an instruction, or the reason the word is refused (R57). -/
inductive Decoded where
  | instr (i : Instr)
  | refuse (r : RefuseReason)
  deriving DecidableEq, Repr

/-- The value kept for one bank. -/
def Banked.get {α : Type} (x : Banked α) : Bank → α
  | .bankA => x.a
  | .bankB => x.b

/-- The nineteen registers, in the order the source lists them (R16). -/
def Reg.all : List Reg :=
  [.paired .iodir .bankA, .paired .iodir .bankB, .paired .gppu .bankA, .paired .gppu .bankB, .paired .gpio .bankA, .paired .gpio .bankB,
   .paired .olat .bankA, .paired .olat .bankB, .paired .gpinten .bankA, .paired .gpinten .bankB] ++
  [.paired .intcon .bankA, .paired .intcon .bankB, .paired .defval .bankA, .paired .defval .bankB, .paired .intf .bankA, .paired .intf .bankB,
   .paired .intcap .bankA, .paired .intcap .bankB, .iocon]

/-- The address a register map gives a register (R53). -/
def RegMap.addr (m : RegMap) : Reg → Byte
  | .paired .iodir b => m.iodir.get b
  | .paired .gppu b => m.gppu.get b
  | .paired .gpio b => m.gpio.get b
  | .paired .olat b => m.olat.get b
  | .paired .gpinten b => m.gpinten.get b
  | .paired .intcon b => m.intcon.get b
  | .paired .defval b => m.defval.get b
  | .paired .intf b => m.intf.get b
  | .paired .intcap b => m.intcap.get b
  | .iocon => m.iocon

/-- D1: a register map is injective: no two registers share an address. -/
def RegMap.injective (m : RegMap) : Bool := decide (Reg.all.map m.addr).Nodup

/-- R53: the default `REGMAP`. PRESUMED (from general knowledge, G2): assumption 8. -/
def RegMap.vendor : RegMap where
  iodir := ⟨0x00, 0x01⟩
  gpinten := ⟨0x04, 0x05⟩
  defval := ⟨0x06, 0x07⟩
  intcon := ⟨0x08, 0x09⟩
  iocon := 0x0A
  gppu := ⟨0x0C, 0x0D⟩
  intf := ⟨0x0E, 0x0F⟩
  intcap := ⟨0x10, 0x11⟩
  gpio := ⟨0x12, 0x13⟩
  olat := ⟨0x14, 0x15⟩

/-- R52, R59: the register an address decodes to, if any. -/
def RegMap.lookup (m : RegMap) (a : Byte) : Option Reg := Reg.all.find? (fun r => m.addr r == a)

/-- R54: the read of each register. -/
def Instr.ofRead : Reg → Instr
  | .paired .iodir .bankA => .rdIodirA
  | .paired .iodir .bankB => .rdIodirB
  | .paired .gppu .bankA => .rdGppuA
  | .paired .gppu .bankB => .rdGppuB
  | .paired .gpio .bankA => .rdGpioA
  | .paired .gpio .bankB => .rdGpioB
  | .paired .olat .bankA => .rdOlatA
  | .paired .olat .bankB => .rdOlatB
  | .paired .gpinten .bankA => .rdGpintenA
  | .paired .gpinten .bankB => .rdGpintenB
  | .paired .intcon .bankA => .rdIntconA
  | .paired .intcon .bankB => .rdIntconB
  | .paired .defval .bankA => .rdDefvalA
  | .paired .defval .bankB => .rdDefvalB
  | .paired .intf .bankA => .rdIntfA
  | .paired .intf .bankB => .rdIntfB
  | .paired .intcap .bankA => .rdIntcapA
  | .paired .intcap .bankB => .rdIntcapB
  | .iocon => .rdIocon

/-- R54, R56: the write of each register that has one. -/
def Instr.ofWrite : Reg → Byte → Option Instr
  | .paired .iodir .bankA, d => some (.wrIodirA d)
  | .paired .iodir .bankB, d => some (.wrIodirB d)
  | .paired .gppu .bankA, d => some (.wrGppuA d)
  | .paired .gppu .bankB, d => some (.wrGppuB d)
  | .paired .gpio .bankA, _ => none
  | .paired .gpio .bankB, _ => none
  | .paired .olat .bankA, d => some (.wrOlatA d)
  | .paired .olat .bankB, d => some (.wrOlatB d)
  | .paired .gpinten .bankA, d => some (.wrGpintenA d)
  | .paired .gpinten .bankB, d => some (.wrGpintenB d)
  | .paired .intcon .bankA, d => some (.wrIntconA d)
  | .paired .intcon .bankB, d => some (.wrIntconB d)
  | .paired .defval .bankA, d => some (.wrDefvalA d)
  | .paired .defval .bankB, d => some (.wrDefvalB d)
  | .paired .intf .bankA, d => some (.wrIntfA d)
  | .paired .intf .bankB, d => some (.wrIntfB d)
  | .paired .intcap .bankA, _ => none
  | .paired .intcap .bankB, _ => none
  | .iocon, d => some (.wrIocon d)

/-- R59: a `TX` word: the address, then the data of a read, then a write to a read-only register, in that order (R139).
The check of `IOCON` bit 7 is the write's own (R86). -/
def decodeTx (m : RegMap) (t : BitVec 17) : Decoded :=
  let a := t.extractLsb' 8 8
  let d := t.extractLsb' 0 8
  match m.lookup a with
  | none => .refuse (.unmappedRegister a)
  | some r =>
    if t.getLsbD 16 then
      if d = 0 then .instr (Instr.ofRead r) else .refuse (.reservedField t.toNat)
    else
      match Instr.ofWrite r d with
      | some i => .instr i
      | none => .refuse (.writeToReadOnly a)

/-- R50, R56: an `EV` word: `E[7:6]`, then `DRV`, then the pin. -/
def decodeEv (e : BitVec 8) : Decoded :=
  let p : Pin := (e.extractLsb' 0 4).toFin
  if e.extractLsb' 6 2 = 0 then
    if e.extractLsb' 4 2 = 0 then .instr (.evD0 p)
    else if e.extractLsb' 4 2 = 1 then .instr (.evD1 p)
    else if e.extractLsb' 4 2 = 2 then .instr (.evZ p)
    else .refuse (.reservedField e.toNat)
  else .refuse (.reservedField e.toNat)

/-- R51: the issuer's format selects the decoder. -/
def decode (m : RegMap) : Word → Decoded
  | .tx t => decodeTx m t
  | .ev e => decodeEv e

/-- R49, R54: the word of a read at address `a`: `RW = 1`, `DATA = 0`. -/
def readWord (a : Byte) : Word := .tx (0x10000#17 ||| (a.setWidth 17 <<< 8))

/-- R49, R54: the word of a write of `d` at address `a`: `RW = 0`. -/
def writeWord (a d : Byte) : Word := .tx ((a.setWidth 17 <<< 8) ||| d.setWidth 17)

/-- R50: the `DRV` field of a drive. -/
def Drive.code : Drive → BitVec 2
  | .d0 => 0
  | .d1 => 1
  | .z => 2

/-- R50, R54: the word of an event that sets the drive of pin `p`. -/
def eventWord (v : Drive) (p : Pin) : Word := .ev ((v.code.setWidth 8 <<< 4) ||| (BitVec.ofFin (w := 4) p).setWidth 8)

/-- R54: the word of each instruction. -/
def encode (m : RegMap) : Instr → Word
  | .rdIodirA => readWord (m.addr (.paired .iodir .bankA))
  | .rdIodirB => readWord (m.addr (.paired .iodir .bankB))
  | .rdGpintenA => readWord (m.addr (.paired .gpinten .bankA))
  | .rdGpintenB => readWord (m.addr (.paired .gpinten .bankB))
  | .rdDefvalA => readWord (m.addr (.paired .defval .bankA))
  | .rdDefvalB => readWord (m.addr (.paired .defval .bankB))
  | .rdIntconA => readWord (m.addr (.paired .intcon .bankA))
  | .rdIntconB => readWord (m.addr (.paired .intcon .bankB))
  | .rdIocon => readWord (m.addr .iocon)
  | .rdGppuA => readWord (m.addr (.paired .gppu .bankA))
  | .rdGppuB => readWord (m.addr (.paired .gppu .bankB))
  | .rdIntfA => readWord (m.addr (.paired .intf .bankA))
  | .rdIntfB => readWord (m.addr (.paired .intf .bankB))
  | .rdIntcapA => readWord (m.addr (.paired .intcap .bankA))
  | .rdIntcapB => readWord (m.addr (.paired .intcap .bankB))
  | .rdGpioA => readWord (m.addr (.paired .gpio .bankA))
  | .rdGpioB => readWord (m.addr (.paired .gpio .bankB))
  | .rdOlatA => readWord (m.addr (.paired .olat .bankA))
  | .rdOlatB => readWord (m.addr (.paired .olat .bankB))
  | .wrIodirA d => writeWord (m.addr (.paired .iodir .bankA)) d
  | .wrIodirB d => writeWord (m.addr (.paired .iodir .bankB)) d
  | .wrGpintenA d => writeWord (m.addr (.paired .gpinten .bankA)) d
  | .wrGpintenB d => writeWord (m.addr (.paired .gpinten .bankB)) d
  | .wrDefvalA d => writeWord (m.addr (.paired .defval .bankA)) d
  | .wrDefvalB d => writeWord (m.addr (.paired .defval .bankB)) d
  | .wrIntconA d => writeWord (m.addr (.paired .intcon .bankA)) d
  | .wrIntconB d => writeWord (m.addr (.paired .intcon .bankB)) d
  | .wrIocon d => writeWord (m.addr .iocon) d
  | .wrGppuA d => writeWord (m.addr (.paired .gppu .bankA)) d
  | .wrGppuB d => writeWord (m.addr (.paired .gppu .bankB)) d
  | .wrIntfA d => writeWord (m.addr (.paired .intf .bankA)) d
  | .wrIntfB d => writeWord (m.addr (.paired .intf .bankB)) d
  | .wrOlatA d => writeWord (m.addr (.paired .olat .bankA)) d
  | .wrOlatB d => writeWord (m.addr (.paired .olat .bankB)) d
  | .evD0 p => eventWord .d0 p
  | .evD1 p => eventWord .d1 p
  | .evZ p => eventWord .z p

/-- R49, R50: the word of a row of spec/opcode_table.json from its bits: one byte is an `EV` word, more are a `TX` word,
whose seventeen bits fill three bytes from the bottom. Bits above the format belong to no word. Assumption 18. -/
def wordOfBits (nbits w : Nat) : Option Word :=
  if nbits ≤ 8 then
    if w < 2 ^ 8 then some (.ev (BitVec.ofNat 8 w)) else none
  else
    if w < 2 ^ 17 then some (.tx (BitVec.ofNat 17 w)) else none

/-- The instruction of a decoder's answer, if it is one. -/
def Decoded.instr? : Decoded → Option Instr
  | .instr i => some i
  | .refuse _ => none

/-- The instruction the decoder reads, under the default register map, from the bits of a row of the opcode table. -/
def decodeTableWord (nbits w : Nat) : Option Instr :=
  (wordOfBits nbits w).bind (fun x => (decode RegMap.vendor x).instr?)

end Sys2Proof
end

