-- ==== Sys2Proof/Machine/HostSide.lean ====
section
/-! DEFINITION. The host side as plain data: the driver's operations and their operands (R112 to R131), their results
(R11, R136), and a host thread (R145). -/

namespace Sys2Proof.Machine

/-- R112: the driver's handle. -/
inductive Handle where
  | closed
  | opened
  | unusable
  deriving DecidableEq, Repr

/-- R116, R119: the pin modes. -/
inductive PinMode where
  | output
  | input
  | inputWithPullup
  deriving DecidableEq, Repr

/-- R116: the two levels a host names: a pin value or an active polarity. -/
inductive Level where
  | high
  | low
  deriving DecidableEq, Repr

/-- R116, R124: the trigger modes. -/
inductive TriggerMode where
  | onChange
  | onRisingEdge
  | onFallingEdge
  deriving DecidableEq, Repr

/-- R123: the operand of `configureInterruptOutput`. -/
structure OutputConfig where
  activePolarity : Level
  openDrain : Bool
  mirrored : Bool
  deriving DecidableEq, Repr

/-- R112 to R131: the driver's fifteen operations. A pin index is an integer (R15): it may be invalid. -/
inductive DriverOp where
  /-- R117 `open(chipAddress, busPath)`. -/
  | openDriver (chipAddress : BitVec 7) (busPath : String)
  /-- R118 `close()`. -/
  | closeDriver
  /-- R119. -/
  | setPinMode (p : Int) (mode : PinMode)
  /-- R120. -/
  | writePin (p : Int) (value : Level)
  /-- R121. -/
  | readPin (p : Int)
  /-- R122. -/
  | setInterruptEnabled (p : Int) (enabled : Bool)
  /-- R123. -/
  | configureInterruptOutput (config : OutputConfig)
  /-- R124. -/
  | setInterruptTriggerMode (p : Int) (mode : TriggerMode)
  /-- R125. -/
  | getInterruptFlags (clear : Bool)
  /-- R126. -/
  | getInterruptPins (clear : Bool)
  /-- R127. -/
  | isInterruptOnPin (p : Int) (clear : Bool)
  /-- R128. -/
  | getInterruptCapture (clear : Bool)
  /-- R129. -/
  | clearAllInterrupts
  /-- R130. -/
  | setSlewRateEnabled (enabled : Bool)
  /-- R131. -/
  | setSequentialOperationEnabled (enabled : Bool)
  deriving DecidableEq, Repr

/-- R136: the errors of the source's taxonomy; `InvalidArgument` cannot arise here (R116, assumption 25). -/
inductive HostError where
  | openFailure
  | transactionFailure
  | invalidPinIndex
  | invalidArgument
  deriving DecidableEq, Repr

/-- R121: what `readPin` gives: a level, or `ERROR` ("no measurement taken"). -/
inductive PinReading where
  | high
  | low
  | error
  deriving DecidableEq, Repr

/-- R11: the result of an operation: `Ok` with its value, or `Err`. -/
inductive OpResult where
  | ok
  | err (e : HostError)
  | reading (r : PinReading)
  | flags (f : BitVec 16)
  | pins (ps : List Pin)
  | onPin (yes : Bool)
  | captures (cs : List (Pin × Bool))
  deriving DecidableEq, Repr

/-- Where a thread is in its operation: not begun, or begun, with the bytes its completed transactions moved, oldest
first (every transaction moves one byte, R36: the byte read, or the byte written). -/
inductive Phase where
  | start
  | running (moved : List Byte)
  deriving DecidableEq, Repr

/-- R145: a host thread: the operations it has still to run, the first of them the one in progress, and the results it
has got, oldest first. Assumption 13. -/
structure Thread where
  program : List DriverOp
  phase : Phase
  results : List OpResult
  deriving DecidableEq, Repr

end Sys2Proof.Machine
end

