-- ==== Sys2Proof/Machine/State.lean ====
section
/-! DEFINITION. The state of the chip, of its host and of its pin environment, as plain data (R13, R14, R112), the
requests that drive it, and the state after power-on reset (R148). -/

namespace Sys2Proof.Machine

/-- Why a step could fault. -/
inductive Fault where
  /-- R133: an admitted word the decoder gives no meaning to. Nobody raises it: by R57 no such word exists, and the
  decoder is total. Safe. -/
  | unmodelled (w : Nat)
  deriving DecidableEq, Repr

/-- Why a step could stop for want of a meaning. (A refusal in the SPEC's sense, R134, is a next state with `refused`
set and its `RefuseReason` in `reply`: assumption 4.) -/
inductive Refusal where
  /-- An instruction that has no meaning yet. Nobody raises it: every arm of `exec` has its meaning. Safe. -/
  | notModelled (mnemonic : String)
  deriving DecidableEq, Repr

/-- R135: how the transport ends a request: it completes, or it fails (a transaction that fails gives the host no value;
`open` that fails gives no handle). It is an input: assumption 3. -/
inductive Fate where
  | completes
  | fails
  deriving DecidableEq, Repr

/-- What the last host transaction gave its issuer (R10, R134, R135). The model's own: assumption 5. -/
inductive Reply where
  /-- No transaction yet. -/
  | idle
  /-- A read completed with this byte. -/
  | value (v : Byte)
  /-- A write of this byte completed. -/
  | written (d : Byte)
  /-- R135: `TransactionFailure`: no value. -/
  | failed
  /-- R134: the request was refused: no value. -/
  | refused (r : RefuseReason)
  deriving DecidableEq, Repr

/-- R5, R44: one entry of the total order of all agents' steps. -/
inductive Request where
  /-- A host issues a `TX` word (R49). -/
  | tx (w : BitVec 17) (fate : Fate)
  /-- The pin environment issues an `EV` word (R50). -/
  | event (w : BitVec 8)
  /-- R39: a host asks for a transfer of `extra + 2` registers in one transaction. -/
  | burst (a : Byte) (extra : Nat)
  /-- A host thread starts, to run these operations (R145). -/
  | spawn (program : List DriverOp)
  /-- Host thread `t` moves on in its program (R44, R145). -/
  | move (t : Nat) (fate : Fate)
  /-- R118: host thread `t` leaves the scope of its driver instance, on whichever path, an early return on an error among
  them. Which event that is, the spec leaves open: assumption 26. -/
  | leaveScope (t : Nat)
  deriving DecidableEq, Repr

/-- R14, R112: everything the spec gives the machine, the launch parameters (R7), and the model's own fields
(`agenda`, `fate`, `reply`, `draws`). -/
structure State where
  /-- R17: direction, 1 = input. -/
  iodir : Banked Byte
  /-- R18: pull-up enable. -/
  gppu : Banked Byte
  /-- R19: output latch. -/
  olat : Banked Byte
  /-- R21: interrupt enable. -/
  gpinten : Banked Byte
  /-- R22: 0 = compare-to-previous, 1 = compare-to-reference. -/
  intcon : Banked Byte
  /-- R23: the reference bit. -/
  defval : Banked Byte
  /-- R24: the interrupt flags. -/
  intf : Banked Byte
  /-- R25: the captured levels. -/
  cap : Banked Byte
  /-- R26: the shared control register; bit 0 is not stored and bit 7 is never 1. Assumption 20. -/
  iocon : Byte
  /-- R30: the resolved levels; bit `k` of bank `b` is the level of `pin(b, k)`. Assumption 19. -/
  lvl : Banked Byte
  /-- R31: what the pin environment drives onto each pin. -/
  ext : Vector Drive 16
  /-- R32: set by any refusal, never cleared. -/
  refused : Bool
  /-- R112: the driver's handle. -/
  handle : Handle
  /-- R145: the host threads, in the order they started. -/
  threads : List Thread
  /-- R7: the parameters of the launch; no step writes them. -/
  params : Params
  /-- R44: the requests still to come, in their total order. Assumption 1. -/
  agenda : List Request
  /-- R135: the transport's verdict on the request being served. Assumption 3. -/
  fate : Fate
  /-- What the last host transaction gave its issuer. Assumption 5. -/
  reply : Reply
  /-- How many draws (free values) have been made. Assumption 2. -/
  draws : Nat
  deriving DecidableEq, Repr

/-- R7: the parameters at their defaults; `IOC_ON_OUTPUTS` has none and stays free. Assumptions 8 to 11. -/
def launchParams : Params where
  regmap := RegMap.vendor
  triggerSense := .edgeToRef
  intfWrite := .clearOnZero
  iocOnOutputs := Config.iocOnOutputs

/-- R148, R149: the machine right after power-on reset, with every pin driven low by the environment (a launch
parameter the spec leaves open: assumption 6), so that every level is 0. The registers other than IODIR hold the
family's values: assumption 7. -/
def State.reset : State where
  iodir := ⟨0xFF, 0xFF⟩
  gppu := ⟨0x00, 0x00⟩
  olat := ⟨0x00, 0x00⟩
  gpinten := ⟨0x00, 0x00⟩
  intcon := ⟨0x00, 0x00⟩
  defval := ⟨0x00, 0x00⟩
  intf := ⟨0x00, 0x00⟩
  cap := ⟨0x00, 0x00⟩
  iocon := 0x00
  lvl := ⟨0x00, 0x00⟩
  ext := Vector.replicate 16 .d0
  refused := false
  handle := .closed
  threads := []
  params := launchParams
  agenda := []
  fate := .completes
  reply := .idle
  draws := 0

end Sys2Proof.Machine
end

