-- ==== Sys2Proof/Machine/Operands.lean ====
section
/-! DEFINITION. The operands: a pin's bank and bit, and the bit of a register that belongs to a pin (R8, R9, R15, R29). -/

namespace Sys2Proof

/-- Write the value kept for one bank. -/
def Banked.set {α : Type} (x : Banked α) (b : Bank) (v : α) : Banked α :=
  match b with
  | .bankA => { x with a := v }
  | .bankB => { x with b := v }

end Sys2Proof

namespace Sys2Proof.Machine

/-- R15: `bank(p)`. -/
def bankOf (p : Pin) : Bank := if p.val < 8 then .bankA else .bankB

/-- R15: `bit(p)`. -/
def bitOf (p : Pin) : Nat := p.val % 8

/-- R15: `pin(b, k)`, the inverse. -/
def pinOf (b : Bank) (k : Fin 8) : Pin :=
  match b with
  | .bankA => ⟨k.val, by omega⟩
  | .bankB => ⟨8 + k.val, by omega⟩

/-- The pins, ascending. -/
def allPins : List Pin := [0, 1, 2, 3, 4, 5, 6, 7] ++ [8, 9, 10, 11, 12, 13, 14, 15]

/-- The bits of a byte, ascending. -/
def allBits : List (Fin 8) := [0, 1, 2, 3, 4, 5, 6, 7]

/-- R9: `set(v, k)`. -/
def setBit (v : Byte) (k : Nat) : Byte := v ||| (1#8 <<< k)

/-- R9: `clr(v, k)`. -/
def clrBit (v : Byte) (k : Nat) : Byte := v &&& ~~~(1#8 <<< k)

/-- R9: `put(v, k, b)`. -/
def putBit (v : Byte) (k : Nat) (bit : Bool) : Byte := if bit then setBit v k else clrBit v k

/-- R15: pin `p`'s bit of a bank-paired register. -/
def pinBit (x : Banked Byte) (p : Pin) : Bool := (x.get (bankOf p)).getLsbD (bitOf p)

/-- R15: write pin `p`'s bit of a bank-paired register. -/
def putPin (x : Banked Byte) (p : Pin) (bit : Bool) : Banked Byte :=
  x.set (bankOf p) (putBit (x.get (bankOf p)) (bitOf p) bit)

/-- R29: the 16-bit logical view of a bank pair: bank B high, bank A low. -/
def view16 (x : Banked Byte) : BitVec 16 := x.b ++ x.a

/-- The drive of a level (R96, R110). -/
def driveOf (level : Bool) : Drive := if level then .d1 else .d0

end Sys2Proof.Machine
end

