-- ==== Sys2Proof/Machine/Ops.lean ====
section
/-! DEFINITION. The named operations on the state: one update per register, the draws (R10), the refusal (R134), and the
ways a transaction ends (R135). The block takes no exception and returns from none (R140, R141). -/

namespace Sys2Proof.Machine

/-- R17: write the register of bank `b`. -/
def State.setIodir (s : State) (b : Bank) (v : Byte) : State := { s with iodir := s.iodir.set b v }

/-- R18: write the register of bank `b`. -/
def State.setGppu (s : State) (b : Bank) (v : Byte) : State := { s with gppu := s.gppu.set b v }

/-- R19: write the register of bank `b`. -/
def State.setOlat (s : State) (b : Bank) (v : Byte) : State := { s with olat := s.olat.set b v }

/-- R21: write the register of bank `b`. -/
def State.setGpinten (s : State) (b : Bank) (v : Byte) : State := { s with gpinten := s.gpinten.set b v }

/-- R22: write the register of bank `b`. -/
def State.setIntcon (s : State) (b : Bank) (v : Byte) : State := { s with intcon := s.intcon.set b v }

/-- R23: write the register of bank `b`. -/
def State.setDefval (s : State) (b : Bank) (v : Byte) : State := { s with defval := s.defval.set b v }

/-- R24: write the register of bank `b`. -/
def State.setIntf (s : State) (b : Bank) (v : Byte) : State := { s with intf := s.intf.set b v }

/-- R26: store the control register. -/
def State.setIocon (s : State) (v : Byte) : State := { s with iocon := v }

/-- R30: write the level of pin `p`. -/
def State.setLevel (s : State) (p : Pin) (v : Bool) : State := { s with lvl := putPin s.lvl p v }

/-- R31: write what the environment drives onto pin `p`. -/
def State.setExt (s : State) (p : Pin) (v : Drive) : State := { s with ext := s.ext.set p v }

/-- R104 `set_flag(p, v)`, where `c` holds: a clear flag is set and its capture bit loaded, once per acknowledge; a flag
already set stays set and keeps its capture. -/
def State.latchFlag (s : State) (c : Bool) (p : Pin) (v : Bool) : State :=
  { s with
    intf := if c && !pinBit s.intf p then putPin s.intf p true else s.intf
    cap := if c && !pinBit s.intf p then putPin s.cap p v else s.cap }

/-- What the last host transaction gave its issuer. -/
def State.setReply (s : State) (r : Reply) : State := { s with reply := r }

/-- The transport's verdict on the request being served. -/
def State.setFate (s : State) (f : Fate) : State := { s with fate := f }

/-- R112: write the driver's handle. -/
def State.setHandle (s : State) (h : Handle) : State := { s with handle := h }

/-- R118: the transport is released: an open handle is closed, any other is left (D23). -/
def State.release (s : State) : State := s.setHandle (if s.handle = .opened then .closed else s.handle)

/-- R145: write host thread `t`. -/
def State.setThread (s : State) (t : Nat) (x : Thread) : State := { s with threads := s.threads.set t x }

/-- Count `n` draws. -/
def State.drawn (s : State) (n : Nat) : State := { s with draws := s.draws + n }

/-- R32: set `refused`. -/
def State.markRefused (s : State) : State := { s with refused := true }

/-- R10 `draw()`: a fresh free bit. -/
def drawBit (s : State) : Bool × State := (Config.freeBit s.draws, s.drawn 1)

/-- Eight draws, as a byte (R91). Assumption 21. -/
def drawByte (s : State) : Byte × State := (Config.freeByte s.draws, s.drawn 8)

/-- R134 `refuse`: no register changes, no value is returned, and `refused` is set for the rest of the run.
Assumption 4. -/
def refuse (r : RefuseReason) (s : State) : Host.Outcome State Fault Refusal :=
  .next (s.markRefused.setReply (.refused r))

/-- R135: a failed transaction that has an effect on the chip: whether it was reached is a draw; the host gets no value.
Assumption 16. -/
def failOrReach (effect : State → State) (s : State) : State :=
  let r := drawBit s
  (if r.1 then effect r.2 else r.2).setReply .failed

/-- R40, R135: a read whose only effect on the chip is that of its own step: a failed one changes nothing.
Assumption 16. -/
def readTx (effect : State → Byte × State) (s : State) : Host.Outcome State Fault Refusal :=
  match s.fate with
  | .completes => .next ((effect s).2.setReply (.value (effect s).1))
  | .fails => .next (s.setReply .failed)

/-- R40, R135: a read that acknowledges: a failed one may have acknowledged. -/
def ackReadTx (effect : State → Byte × State) (s : State) : Host.Outcome State Fault Refusal :=
  match s.fate with
  | .completes => .next ((effect s).2.setReply (.value (effect s).1))
  | .fails => .next (failOrReach (fun s => (effect s).2) s)

/-- R40, R135: a write of `d`: a failed one took full effect or none. -/
def writeTx (d : Byte) (effect : State → State) (s : State) : Host.Outcome State Fault Refusal :=
  match s.fate with
  | .completes => .next ((effect s).setReply (.written d))
  | .fails => .next (failOrReach effect s)

end Sys2Proof.Machine
end

