-- ==== Sys2Proof/Machine/Flags.lean ====
section
/-! DEFINITION. Pin-level resolution and the interrupt flag / edge-trigger multiplexer (R95 to R110): the only flags of
the block are the sixteen interrupt flags (R28). -/

namespace Sys2Proof.Machine

/-- R30: the level of pin `p`. -/
def level (p : Pin) (s : State) : Bool := pinBit s.lvl p

/-- R24: the interrupt flag of pin `p`. -/
def flag (p : Pin) (s : State) : Bool := pinBit s.intf p

/-- R25: the capture bit of pin `p`. -/
def capture (p : Pin) (s : State) : Bool := pinBit s.cap p

/-- R96: the level the pin's own bits and its drive fix; `none` where the spec draws (contention, a floating input).
Assumption 24. -/
def determined (p : Pin) (s : State) : Option Bool :=
  if pinBit s.iodir p = false then
    if s.ext.get p = .z ∨ s.ext.get p = driveOf (pinBit s.olat p) then some (pinBit s.olat p) else none
  else
    match s.ext.get p with
    | .d0 => some false
    | .d1 => some true
    | .z => if pinBit s.gppu p then some true else none

/-- R96 `resolve(p)`: the fixed level, or a draw. -/
def resolve (p : Pin) (s : State) : Bool := (determined p s).getD (drawBit s).1

/-- R96: how many draws `resolve(p)` makes. -/
def resolveDraws (p : Pin) (s : State) : Nat := if (determined p s).isSome then 0 else 1

/-- R101: whether pin `p` can set its flag. -/
def eligible (p : Pin) (s : State) : Bool :=
  pinBit s.gpinten p && (s.params.iocOnOutputs || pinBit s.iodir p)

/-- R102: whether a change of pin `p` to level `new` sets its flag: in compare-to-previous mode any change; in
compare-to-reference mode, under `EDGE_TO_REF`, a change into the reference level. (Under `LEVEL_MISMATCH` that mode is
left to `levelEval`.) -/
def fires (p : Pin) (new : Bool) (s : State) : Bool :=
  eligible p s &&
    (!pinBit s.intcon p || (s.params.triggerSense == .edgeToRef && new == pinBit s.defval p))

/-- R102 `on_change(p, old, new)`: without effect where the level did not change. -/
def onChange (p : Pin) (old new : Bool) (s : State) : State := s.latchFlag (new != old && fires p new s) p new

/-- R103: the level condition of one pin, looked at under `LEVEL_MISMATCH` only. -/
def mismatched (p : Pin) (s : State) : Bool :=
  s.params.triggerSense == .levelMismatch && eligible p s && pinBit s.intcon p && (level p s != pinBit s.defval p)

/-- R103: the flags after `level_eval`: every pin whose level condition holds has its flag set. -/
def evalFlags (s : State) : Banked Byte :=
  allPins.foldl (fun x p => if mismatched p s then putPin x p true else x) s.intf

/-- R103, R104: the captures after `level_eval`: such a pin's bit is loaded where its flag was clear. -/
def evalCaptures (s : State) : Banked Byte :=
  allPins.foldl (fun x p => if mismatched p s && !flag p s then putPin x p (level p s) else x) s.cap

/-- R103 `level_eval()`: no effect under `EDGE_TO_REF`. The level condition of a pin reads no flag, so the spec's loop
over `set_flag` is taken field by field. -/
def levelEval (s : State) : State := { s with intf := evalFlags s, cap := evalCaptures s }

/-- R96, R97: pin `p` takes its resolved level. -/
def settlePin (s : State) (p : Pin) : State := (s.setLevel p (resolve p s)).drawn (resolveDraws p s)

/-- R97 `resolve_pin(p)`. -/
def resolvePin (p : Pin) (s : State) : State := onChange p (level p s) (resolve p s) (settlePin s p)

/-- R97 `resolve_changed(b, m)`, one bit of its loop. -/
def resolveBit (b : Bank) (m : Byte) (s : State) (k : Fin 8) : State :=
  if m.getLsbD k then resolvePin (pinOf b k) s else s

/-- R97 `resolve_changed(b, m)`: the pins of bank `b` whose bits are set in `m`, ascending (R105). -/
def resolveChanged (b : Bank) (m : Byte) (s : State) : State := allBits.foldl (resolveBit b m) s

/-- R106 `ack(b)`: clear every flag of the bank, keep its capture. -/
def ack (b : Bank) (s : State) : State := levelEval (s.setIntf b 0)

/-- R109: whether an interrupt-output pin (`INTA` for bank A, `INTB` for bank B) is active. Assumptions 23, 24. -/
def intActive (b : Bank) (s : State) : Bool :=
  if s.iocon.getLsbD 6 then s.intf.a != 0 || s.intf.b != 0 else s.intf.get b != 0

/-- R110: what an interrupt-output pin drives. -/
def intDrive (b : Bank) (s : State) : Drive :=
  if s.iocon.getLsbD 2 then (if intActive b s then .d0 else .z)
  else driveOf (intActive b s == s.iocon.getLsbD 1)

/-- R148, R149: power-on reset under any launch parameters and any drive of the pins: each level is resolved, and is not
a change. -/
def powerOn (params : Params) (ext : Vector Drive 16) : State :=
  allPins.foldl settlePin { State.reset with params := params, ext := ext }

end Sys2Proof.Machine
end

