-- ==== Sys2Proof/Machine/PinRegisters.lean ====
section
/-! DEFINITION. The registers of the pins: direction, pull-up, output latch, input state (R61 to R72, R93, R94). -/

namespace Sys2Proof.Machine

/-- The common read of a stored register: the value sampled, then `level_eval` (R41, R61). -/
def readStored (v : State → Byte) (s : State) : Host.Outcome State Fault Refusal :=
  readTx (fun s => (v s, levelEval s)) s

/-- R62, R64: store the direction, re-resolve the pins whose direction changed, `level_eval`. -/
def storeIodir (b : Bank) (d : Byte) (s : State) : State :=
  levelEval (resolveChanged b (s.iodir.get b ^^^ d) (s.setIodir b d))

/-- R66, R68: store the pull-ups, re-resolve the pins whose pull-up changed, `level_eval`. A contended output among them draws
anew, although R66's prose says that its level stays: DEDUCED, assumption 27. -/
def storeGppu (b : Bank) (d : Byte) (s : State) : State :=
  levelEval (resolveChanged b (s.gppu.get b ^^^ d) (s.setGppu b d))

/-- R70, R72: store the latch, re-resolve the pins whose latch bit changed, `level_eval`. A floating input among them draws
anew, although the prose of R19, R70 and R120 says that it does not change: DEDUCED, assumption 27. -/
def storeOlat (b : Bank) (d : Byte) (s : State) : State :=
  levelEval (resolveChanged b (s.olat.get b ^^^ d) (s.setOlat b d))

/-- R93, R94: the levels of the bank, sampled before the acknowledge. -/
def readLevels (b : Bank) (s : State) : Host.Outcome State Fault Refusal :=
  ackReadTx (fun s => (s.lvl.get b, ack b s)) s

/-- RD_IODIRA, R61. -/
def execRdIodirA (s : State) : Host.Outcome State Fault Refusal :=
  readStored (fun s => s.iodir.get .bankA) s

/-- WR_IODIRA, R62. -/
def execWrIodirA (d : Byte) (s : State) : Host.Outcome State Fault Refusal :=
  writeTx d (storeIodir .bankA d) s

/-- RD_IODIRB, R63. -/
def execRdIodirB (s : State) : Host.Outcome State Fault Refusal :=
  readStored (fun s => s.iodir.get .bankB) s

/-- WR_IODIRB, R64. -/
def execWrIodirB (d : Byte) (s : State) : Host.Outcome State Fault Refusal :=
  writeTx d (storeIodir .bankB d) s

/-- RD_GPPUA, R65. -/
def execRdGppuA (s : State) : Host.Outcome State Fault Refusal :=
  readStored (fun s => s.gppu.get .bankA) s

/-- WR_GPPUA, R66. -/
def execWrGppuA (d : Byte) (s : State) : Host.Outcome State Fault Refusal :=
  writeTx d (storeGppu .bankA d) s

/-- RD_GPPUB, R67. -/
def execRdGppuB (s : State) : Host.Outcome State Fault Refusal :=
  readStored (fun s => s.gppu.get .bankB) s

/-- WR_GPPUB, R68. -/
def execWrGppuB (d : Byte) (s : State) : Host.Outcome State Fault Refusal :=
  writeTx d (storeGppu .bankB d) s

/-- RD_OLATA, R69. -/
def execRdOlatA (s : State) : Host.Outcome State Fault Refusal :=
  readStored (fun s => s.olat.get .bankA) s

/-- WR_OLATA, R70. -/
def execWrOlatA (d : Byte) (s : State) : Host.Outcome State Fault Refusal :=
  writeTx d (storeOlat .bankA d) s

/-- RD_OLATB, R71. -/
def execRdOlatB (s : State) : Host.Outcome State Fault Refusal :=
  readStored (fun s => s.olat.get .bankB) s

/-- WR_OLATB, R72. -/
def execWrOlatB (d : Byte) (s : State) : Host.Outcome State Fault Refusal :=
  writeTx d (storeOlat .bankB d) s

/-- RD_GPIOA, R93. -/
def execRdGpioA (s : State) : Host.Outcome State Fault Refusal :=
  readLevels .bankA s

/-- RD_GPIOB, R94. -/
def execRdGpioB (s : State) : Host.Outcome State Fault Refusal :=
  readLevels .bankB s

end Sys2Proof.Machine
end

