-- ==== Sys2Proof/Machine/Control.lean ====
section
/-! DEFINITION. The shared control register (R26, R85, R86). -/

namespace Sys2Proof.Machine

/-- R86: bits 6 to 1 stored; bit 0 ignored. -/
def storeIocon (d : Byte) (s : State) : State := levelEval (s.setIocon (d &&& 0x7E))

/-- RD_IOCON, R85: the stored byte with a fresh draw in bit 0. -/
def execRdIocon (s : State) : Host.Outcome State Fault Refusal :=
  readTx
    (fun s =>
      let r := drawBit s
      ((s.iocon &&& 0xFE) ||| (BitVec.ofBool r.1).setWidth 8, levelEval r.2))
    s

/-- WR_IOCON, R86: a write of 1 to bit 7 is refused before anything else (R139). -/
def execWrIocon (d : Byte) (s : State) : Host.Outcome State Fault Refusal :=
  if d.getLsbD 7 then refuse (.reservedConfig d) s else writeTx d (storeIocon d) s

end Sys2Proof.Machine
end

