-- ==== Sys2Proof/Machine/InterruptRegisters.lean ====
section
/-! DEFINITION. The registers of the interrupt logic: enable, control, default-compare value, flags, captures (R73 to R84, R87 to
R92). -/

namespace Sys2Proof.Machine

/-- R74, R76: store the enables; a flag already set stays set. -/
def storeGpinten (b : Bank) (d : Byte) (s : State) : State := levelEval (s.setGpinten b d)

/-- R78, R80: store the comparison selection. -/
def storeIntcon (b : Bank) (d : Byte) (s : State) : State := levelEval (s.setIntcon b d)

/-- R82, R84: store the reference bits. -/
def storeDefval (b : Bank) (d : Byte) (s : State) : State := levelEval (s.setDefval b d)

/-- R88, R90, R107: clear the flags written 0, or nothing, as `INTF_WRITE` says; never set one. -/
def storeIntf (b : Bank) (d : Byte) (s : State) : State :=
  match s.params.intfWrite with
  | .clearOnZero => levelEval (s.setIntf b (s.intf.get b &&& d))
  | .ignored => levelEval s

/-- R91, R92: the capture of every flagged pin and a draw for every other bit, sampled before the acknowledge. -/
def readCapture (b : Bank) (s : State) : Host.Outcome State Fault Refusal :=
  ackReadTx
    (fun s =>
      let r := drawByte s
      ((s.intf.get b &&& s.cap.get b) ||| (~~~(s.intf.get b) &&& r.1), ack b r.2))
    s

/-- RD_GPINTENA, R73. -/
def execRdGpintenA (s : State) : Host.Outcome State Fault Refusal :=
  readStored (fun s => s.gpinten.get .bankA) s

/-- WR_GPINTENA, R74. -/
def execWrGpintenA (d : Byte) (s : State) : Host.Outcome State Fault Refusal :=
  writeTx d (storeGpinten .bankA d) s

/-- RD_GPINTENB, R75. -/
def execRdGpintenB (s : State) : Host.Outcome State Fault Refusal :=
  readStored (fun s => s.gpinten.get .bankB) s

/-- WR_GPINTENB, R76. -/
def execWrGpintenB (d : Byte) (s : State) : Host.Outcome State Fault Refusal :=
  writeTx d (storeGpinten .bankB d) s

/-- RD_INTCONA, R77. -/
def execRdIntconA (s : State) : Host.Outcome State Fault Refusal :=
  readStored (fun s => s.intcon.get .bankA) s

/-- WR_INTCONA, R78. -/
def execWrIntconA (d : Byte) (s : State) : Host.Outcome State Fault Refusal :=
  writeTx d (storeIntcon .bankA d) s

/-- RD_INTCONB, R79. -/
def execRdIntconB (s : State) : Host.Outcome State Fault Refusal :=
  readStored (fun s => s.intcon.get .bankB) s

/-- WR_INTCONB, R80. -/
def execWrIntconB (d : Byte) (s : State) : Host.Outcome State Fault Refusal :=
  writeTx d (storeIntcon .bankB d) s

/-- RD_DEFVALA, R81. -/
def execRdDefvalA (s : State) : Host.Outcome State Fault Refusal :=
  readStored (fun s => s.defval.get .bankA) s

/-- WR_DEFVALA, R82. -/
def execWrDefvalA (d : Byte) (s : State) : Host.Outcome State Fault Refusal :=
  writeTx d (storeDefval .bankA d) s

/-- RD_DEFVALB, R83. -/
def execRdDefvalB (s : State) : Host.Outcome State Fault Refusal :=
  readStored (fun s => s.defval.get .bankB) s

/-- WR_DEFVALB, R84. -/
def execWrDefvalB (d : Byte) (s : State) : Host.Outcome State Fault Refusal :=
  writeTx d (storeDefval .bankB d) s

/-- RD_INTFA, R87. -/
def execRdIntfA (s : State) : Host.Outcome State Fault Refusal :=
  readStored (fun s => s.intf.get .bankA) s

/-- WR_INTFA, R88. -/
def execWrIntfA (d : Byte) (s : State) : Host.Outcome State Fault Refusal :=
  writeTx d (storeIntf .bankA d) s

/-- RD_INTFB, R89. -/
def execRdIntfB (s : State) : Host.Outcome State Fault Refusal :=
  readStored (fun s => s.intf.get .bankB) s

/-- WR_INTFB, R90. -/
def execWrIntfB (d : Byte) (s : State) : Host.Outcome State Fault Refusal :=
  writeTx d (storeIntf .bankB d) s

/-- RD_INTCAPA, R91. -/
def execRdIntcapA (s : State) : Host.Outcome State Fault Refusal :=
  readCapture .bankA s

/-- RD_INTCAPB, R92. -/
def execRdIntcapB (s : State) : Host.Outcome State Fault Refusal :=
  readCapture .bankB s

end Sys2Proof.Machine
end

