-- ==== Sys2Proof/Machine/PinEvents.lean ====
section
/-! DEFINITION. The events of the pin environment (R98 to R100). -/

namespace Sys2Proof.Machine

/-- R98 to R100: the drive changes, the pin is re-resolved, `level_eval`. An output with latch 1 that is already driven low
draws anew at a further `EV_D0`, although R98's prose says that on a pin already at `D0` it changes nothing: DEDUCED,
assumption 28. -/
def drivePin (p : Pin) (v : Drive) (s : State) : State := levelEval (resolvePin p (s.setExt p v))

/-- EV_D0, R98. -/
def execEvD0 (p : Pin) (s : State) : Host.Outcome State Fault Refusal :=
  .next (drivePin p .d0 s)

/-- EV_D1, R99. -/
def execEvD1 (p : Pin) (s : State) : Host.Outcome State Fault Refusal :=
  .next (drivePin p .d1 s)

/-- EV_Z, R100. -/
def execEvZ (p : Pin) (s : State) : Host.Outcome State Fault Refusal :=
  .next (drivePin p .z s)

end Sys2Proof.Machine
end

