-- ==== Sys2Proof/Machine/Dispatch.lean ====
section
/-! DEFINITION. What each instruction does: one arm per constructor. -/

namespace Sys2Proof.Machine

def exec (i : Instr) (s : State) : Host.Outcome State Fault Refusal :=
  match i with
  | .rdIodirA => Sys2Proof.Machine.execRdIodirA s
  | .rdIodirB => Sys2Proof.Machine.execRdIodirB s
  | .rdGpintenA => Sys2Proof.Machine.execRdGpintenA s
  | .rdGpintenB => Sys2Proof.Machine.execRdGpintenB s
  | .rdDefvalA => Sys2Proof.Machine.execRdDefvalA s
  | .rdDefvalB => Sys2Proof.Machine.execRdDefvalB s
  | .rdIntconA => Sys2Proof.Machine.execRdIntconA s
  | .rdIntconB => Sys2Proof.Machine.execRdIntconB s
  | .rdIocon => Sys2Proof.Machine.execRdIocon s
  | .rdGppuA => Sys2Proof.Machine.execRdGppuA s
  | .rdGppuB => Sys2Proof.Machine.execRdGppuB s
  | .rdIntfA => Sys2Proof.Machine.execRdIntfA s
  | .rdIntfB => Sys2Proof.Machine.execRdIntfB s
  | .rdIntcapA => Sys2Proof.Machine.execRdIntcapA s
  | .rdIntcapB => Sys2Proof.Machine.execRdIntcapB s
  | .rdGpioA => Sys2Proof.Machine.execRdGpioA s
  | .rdGpioB => Sys2Proof.Machine.execRdGpioB s
  | .rdOlatA => Sys2Proof.Machine.execRdOlatA s
  | .rdOlatB => Sys2Proof.Machine.execRdOlatB s
  | .wrIodirA d => Sys2Proof.Machine.execWrIodirA d s
  | .wrIodirB d => Sys2Proof.Machine.execWrIodirB d s
  | .wrGpintenA d => Sys2Proof.Machine.execWrGpintenA d s
  | .wrGpintenB d => Sys2Proof.Machine.execWrGpintenB d s
  | .wrDefvalA d => Sys2Proof.Machine.execWrDefvalA d s
  | .wrDefvalB d => Sys2Proof.Machine.execWrDefvalB d s
  | .wrIntconA d => Sys2Proof.Machine.execWrIntconA d s
  | .wrIntconB d => Sys2Proof.Machine.execWrIntconB d s
  | .wrIocon d => Sys2Proof.Machine.execWrIocon d s
  | .wrGppuA d => Sys2Proof.Machine.execWrGppuA d s
  | .wrGppuB d => Sys2Proof.Machine.execWrGppuB d s
  | .wrIntfA d => Sys2Proof.Machine.execWrIntfA d s
  | .wrIntfB d => Sys2Proof.Machine.execWrIntfB d s
  | .wrOlatA d => Sys2Proof.Machine.execWrOlatA d s
  | .wrOlatB d => Sys2Proof.Machine.execWrOlatB d s
  | .evD0 p => Sys2Proof.Machine.execEvD0 p s
  | .evD1 p => Sys2Proof.Machine.execEvD1 p s
  | .evZ p => Sys2Proof.Machine.execEvZ p s

end Sys2Proof.Machine
end

