-- ==== Sys2Proof/Machine/Driver.lean ====
section
/-! DEFINITION. The driver's operations as transactions (R112 to R131), one move of a host thread (R44, R45, R145), and
the end of a scope (R118). -/

namespace Sys2Proof.Machine

/-- R136: the numeric code of an error. -/
def HostError.code : HostError → Nat
  | .openFailure => 1
  | .transactionFailure => 2
  | .invalidPinIndex => 3
  | .invalidArgument => 4

/-- R15 `valid(p)`. -/
def validPin (p : Int) : Bool := decide (0 ≤ p ∧ p ≤ 15)

/-- The pin of a valid index. -/
def pinOfIndex (p : Int) : Pin := Fin.ofNat 16 p.toNat

/-- R15: the bank of a valid pin index. -/
def bankOfIndex (p : Int) : Bank := bankOf (pinOfIndex p)

/-- R15: the bit of a valid pin index. -/
def bitOfIndex (p : Int) : Nat := bitOf (pinOfIndex p)

/-- The write of a bank's direction register. -/
def writeIodir : Bank → Byte → Instr
  | .bankA, d => .wrIodirA d
  | .bankB, d => .wrIodirB d

/-- The write of a bank's pull-up register. -/
def writeGppu : Bank → Byte → Instr
  | .bankA, d => .wrGppuA d
  | .bankB, d => .wrGppuB d

/-- The write of a bank's output latch. -/
def writeOlat : Bank → Byte → Instr
  | .bankA, d => .wrOlatA d
  | .bankB, d => .wrOlatB d

/-- The write of a bank's interrupt enables. -/
def writeGpinten : Bank → Byte → Instr
  | .bankA, d => .wrGpintenA d
  | .bankB, d => .wrGpintenB d

/-- The write of a bank's interrupt-control register. -/
def writeIntcon : Bank → Byte → Instr
  | .bankA, d => .wrIntconA d
  | .bankB, d => .wrIntconB d

/-- The write of a bank's default-compare values. -/
def writeDefval : Bank → Byte → Instr
  | .bankA, d => .wrDefvalA d
  | .bankB, d => .wrDefvalB d

/-- The read of a bank-paired register. -/
def readReg (k : Kind) (b : Bank) : Instr := Instr.ofRead (.paired k b)

/-- What an operation does next, given the bytes its completed transactions moved: issue a transaction, or return. -/
inductive Next where
  | issue (i : Instr)
  | done (r : OpResult)
  deriving DecidableEq, Repr

/-- R117: both direction registers to all-inputs, bank A first (D18). -/
def openNext : List Byte → Next
  | [] => .issue (.wrIodirA 0xFF)
  | [_] => .issue (.wrIodirB 0xFF)
  | _ => .done .ok

/-- R119: the direction and the pull-up bit of a mode. -/
def modeBits : PinMode → Bool × Bool
  | .output => (false, false)
  | .input => (true, false)
  | .inputWithPullup => (true, true)

/-- R119. -/
def setPinModeNext (b : Bank) (k : Nat) (mode : PinMode) : List Byte → Next
  | [] => .issue (readReg .iodir b)
  | [_] => .issue (readReg .gppu b)
  | [dir, _] => .issue (writeIodir b (putBit dir k (modeBits mode).1))
  | [_, pu, _] => .issue (writeGppu b (putBit pu k (modeBits mode).2))
  | _ => .done .ok

/-- R120: the latch is read, not the input register. -/
def writePinNext (b : Bank) (k : Nat) (value : Level) : List Byte → Next
  | [] => .issue (readReg .olat b)
  | [lat] => .issue (writeOlat b (putBit lat k (value == .high)))
  | _ => .done .ok

/-- R121. -/
def readPinNext (b : Bank) (k : Nat) : List Byte → Next
  | [] => .issue (readReg .gpio b)
  | g :: _ => .done (.reading (if g.getLsbD k then .high else .low))

/-- R122. -/
def setInterruptEnabledNext (b : Bank) (k : Nat) (enabled : Bool) : List Byte → Next
  | [] => .issue (readReg .gpinten b)
  | [en] => .issue (writeGpinten b (putBit en k enabled))
  | _ => .done .ok

/-- R123: polarity (forced clear with open-drain, C6), open-drain, mirror; the other bits as read. -/
def outputBits (config : OutputConfig) (c : Byte) : Byte :=
  putBit (putBit (putBit c 1 (config.activePolarity == .high && !config.openDrain)) 2 config.openDrain) 6 config.mirrored

/-- R123, R130, R131: a read-modify-write of the control register. -/
def modifyIocon (f : Byte → Byte) : List Byte → Next
  | [] => .issue .rdIocon
  | [c] => .issue (.wrIocon (f c))
  | _ => .done .ok

/-- R124: the control and the reference bit of a trigger mode; `ON_CHANGE` leaves the reference (D19). -/
def triggerBits (mode : TriggerMode) (k : Nat) (ic dv : Byte) : Byte × Byte :=
  match mode with
  | .onChange => (clrBit ic k, dv)
  | .onRisingEdge => (setBit ic k, setBit dv k)
  | .onFallingEdge => (setBit ic k, clrBit dv k)

/-- R124. -/
def setInterruptTriggerModeNext (b : Bank) (k : Nat) (mode : TriggerMode) : List Byte → Next
  | [] => .issue (readReg .intcon b)
  | [_] => .issue (readReg .defval b)
  | [ic, dv] => .issue (writeIntcon b (triggerBits mode k ic dv).1)
  | [ic, dv, _] => .issue (writeDefval b (triggerBits mode k ic dv).2)
  | _ => .done .ok

/-- R125: both flag reads, then, if clearing, both zeroing writes; the result from the assembled flags. -/
def flagsNext (clear : Bool) (result : BitVec 16 → OpResult) : List Byte → Next
  | [] => .issue .rdIntfA
  | [_] => .issue .rdIntfB
  | fa :: fb :: zeroed =>
    match clear, zeroed with
    | true, [] => .issue (.wrIntfA 0)
    | true, [_] => .issue (.wrIntfB 0)
    | _, _ => .done (result (fb ++ fa))

/-- R126: the pins whose bits are set, ascending. -/
def flaggedPins (flags : BitVec 16) : List Pin := allPins.filter (fun p => flags.getLsbD p.val)

/-- R128: one entry per flagged pin, ascending. -/
def captureList (flags caps : BitVec 16) : List (Pin × Bool) :=
  (flaggedPins flags).map (fun p => (p, caps.getLsbD p.val))

/-- R128: flags and captures of both banks, then, if clearing, a read of the input register per reported pin. -/
def captureNext (clear : Bool) : List Byte → Next
  | [] => .issue .rdIntfA
  | [_] => .issue .rdIntfB
  | [_, _] => .issue .rdIntcapA
  | [_, _, _] => .issue .rdIntcapB
  | fa :: fb :: ca :: cb :: acks =>
    let out := captureList (fb ++ fa) (cb ++ ca)
    match (if clear then out[acks.length]? else none) with
    | some e => .issue (readReg .gpio (bankOf e.1))
    | none => .done (.captures out)

/-- R129. -/
def clearAllNext : List Byte → Next
  | [] => .issue .rdGpioA
  | [_] => .issue .rdGpioB
  | [_, _] => .issue (.wrIntfA 0)
  | [_, _, _] => .issue (.wrIntfB 0)
  | _ => .done .ok

/-- R117 to R131: the expansion of each operation, for valid operands. -/
def DriverOp.next (op : DriverOp) (moved : List Byte) : Next :=
  match op with
  | .openDriver _ _ => openNext moved
  | .closeDriver => .done .ok
  | .setPinMode p mode => setPinModeNext (bankOfIndex p) (bitOfIndex p) mode moved
  | .writePin p value => writePinNext (bankOfIndex p) (bitOfIndex p) value moved
  | .readPin p => readPinNext (bankOfIndex p) (bitOfIndex p) moved
  | .setInterruptEnabled p enabled => setInterruptEnabledNext (bankOfIndex p) (bitOfIndex p) enabled moved
  | .configureInterruptOutput config => modifyIocon (outputBits config) moved
  | .setInterruptTriggerMode p mode => setInterruptTriggerModeNext (bankOfIndex p) (bitOfIndex p) mode moved
  | .getInterruptFlags clear => flagsNext clear .flags moved
  | .getInterruptPins clear => flagsNext clear (fun f => .pins (flaggedPins f)) moved
  | .isInterruptOnPin p clear => flagsNext clear (fun f => .onPin (f.getLsbD (pinOfIndex p).val)) moved
  | .getInterruptCapture clear => captureNext clear moved
  | .clearAllInterrupts => clearAllNext moved
  | .setSlewRateEnabled enabled => modifyIocon (fun c => putBit c 4 (!enabled)) moved
  | .setSequentialOperationEnabled enabled => modifyIocon (fun c => putBit c 5 (!enabled)) moved

/-- R114: what an operation returns for an invalid pin index; `none` where its index is valid or it takes none (C5). -/
def DriverOp.pinError : DriverOp → Option OpResult
  | .setPinMode p _ => if validPin p then none else some (.err .invalidPinIndex)
  | .writePin p _ => if validPin p then none else some (.err .invalidPinIndex)
  | .readPin p => if validPin p then none else some (.reading .error)
  | .setInterruptEnabled p _ => if validPin p then none else some (.err .invalidPinIndex)
  | .setInterruptTriggerMode p _ => if validPin p then none else some (.err .invalidPinIndex)
  | .isInterruptOnPin p _ => if validPin p then none else some (.onPin false)
  | .openDriver _ _ | .closeDriver | .configureInterruptOutput _ | .getInterruptFlags _ | .getInterruptPins _ => none
  | .getInterruptCapture _ | .clearAllInterrupts | .setSlewRateEnabled _ | .setSequentialOperationEnabled _ => none

/-- The thread when its operation has returned `r`. -/
def Thread.finish (x : Thread) (r : OpResult) : Thread where
  program := x.program.tail
  phase := .start
  results := x.results ++ [r]

/-- R118: the thread when it has left the scope of its driver instance: what it had still to run is dropped. -/
def Thread.leave (x : Thread) : Thread := { x with program := [] }

/-- The thread when its operation is under way with these bytes moved. -/
def Thread.goOn (x : Thread) (moved : List Byte) : Thread := { x with phase := .running moved }

/-- R113, R114, R117, R118, R137: an operation begins: the handle, then the pin index, and no transaction yet.
The handle is not looked at again: assumption 14. -/
def beginOp (t : Nat) (x : Thread) (op : DriverOp) (s : State) : State :=
  match op with
  | .openDriver _ _ =>
    match s.fate with
    | .completes => (s.setHandle .opened).setThread t (x.goOn [])
    | .fails => (s.setHandle .unusable).setThread t (x.finish (.err .openFailure))
  | .closeDriver => s.release.setThread t (x.finish .ok)
  | .setPinMode _ _ | .writePin _ _ | .readPin _ | .setInterruptEnabled _ _ | .configureInterruptOutput _
  | .setInterruptTriggerMode _ _ | .getInterruptFlags _ | .getInterruptPins _ | .isInterruptOnPin _ _
  | .getInterruptCapture _ | .clearAllInterrupts | .setSlewRateEnabled _ | .setSequentialOperationEnabled _ =>
    if s.handle = .opened then
      match op.pinError with
      | some r => s.setThread t (x.finish r)
      | none => s.setThread t (x.goOn [])
    else s.setThread t (x.finish (.err .openFailure))

/-- R115, R117: a transaction of the operation did not complete: it stops at once; a failed `open` leaves the handle
unusable. -/
def abortOp (t : Nat) (x : Thread) (op : DriverOp) (s : State) : State :=
  match op with
  | .openDriver _ _ => (s.setHandle .unusable).setThread t (x.finish (.err .openFailure))
  | .closeDriver | .setPinMode _ _ | .writePin _ _ | .readPin _ | .setInterruptEnabled _ _
  | .configureInterruptOutput _ | .setInterruptTriggerMode _ _ | .getInterruptFlags _ | .getInterruptPins _
  | .isInterruptOnPin _ _ | .getInterruptCapture _ | .clearAllInterrupts | .setSlewRateEnabled _
  | .setSequentialOperationEnabled _ => s.setThread t (x.finish (.err .transactionFailure))

/-- The operation has moved these bytes: it returns if that was all, and waits for its next move otherwise. -/
def advanceOp (t : Nat) (x : Thread) (op : DriverOp) (moved : List Byte) (s : State) : State :=
  match op.next moved with
  | .done r => s.setThread t (x.finish r)
  | .issue _ => s.setThread t (x.goOn moved)

/-- What the thread does with what its transaction gave it (R115). A refused one aborts too: assumption 15. -/
def afterTransaction (t : Nat) (x : Thread) (op : DriverOp) (moved : List Byte) (s : State) : State :=
  match s.reply with
  | .value v => advanceOp t x op (moved ++ [v]) s
  | .written d => advanceOp t x op (moved ++ [d]) s
  | .failed | .refused _ | .idle => abortOp t x op s

/-- R44, R45: one move of a thread: begin its operation, or issue the operation's next transaction. A thread that does
not exist or has nothing left to run does nothing: assumption 13. A program that
has run out is no end of scope of itself: that is a request of its own (`leaveScope`, R118), assumption 26. -/
def moveThread (t : Nat) (s : State) : Host.Outcome State Fault Refusal :=
  match s.threads[t]? with
  | none => .next s
  | some x =>
    match x.program with
    | [] => .next s
    | op :: _ =>
      match x.phase with
      | .start => .next (beginOp t x op s)
      | .running moved =>
        match op.next moved with
        | .done r => .next (s.setThread t (x.finish r))
        | .issue i =>
          match exec i s with
          | .next s' => .next (afterTransaction t x op moved s')
          | .fault f => .fault f
          | .refused r => .refused r

/-- R118: host thread `t` leaves the scope of its driver instance, and the transport is released implicitly, whatever the
thread has got or had still to run. In the middle of an operation a thread leaves nothing, since the operation returns only
when its transactions are through (R45). DESIGN CHOICE, assumption 26: which event it is. -/
def leaveScope (t : Nat) (s : State) : State :=
  match s.threads[t]? with
  | none => s
  | some x =>
    match x.phase with
    | .start => s.release.setThread t x.leave
    | .running _ => s

end Sys2Proof.Machine
end

