-- ==== Sys2Proof/Machine/Agents.lean ====
section
/-! DEFINITION. How one request of the agenda is served (R5, R44), and the request that carries a given word. -/

namespace Sys2Proof.Machine

/-- R59: what the decoder reads is executed, or the request is refused, whatever the transport's verdict (assumption 17). -/
def serveDecoded (d : Decoded) (s : State) : Host.Outcome State Fault Refusal :=
  match d with
  | .instr i => exec i s
  | .refuse r => refuse r s

/-- R5, R44: one step of one agent. Assumption 22. -/
def serve (q : Request) (s : State) : Host.Outcome State Fault Refusal :=
  match q with
  | .tx w fate => serveDecoded (decodeTx s.params.regmap w) (s.setFate fate)
  | .event w => serveDecoded (decodeEv w) s
  | .burst _ _ => refuse .multiByteTransfer s
  | .spawn program => .next { s with threads := s.threads ++ [⟨program, .start, []⟩] }
  | .move t fate => moveThread t (s.setFate fate)
  | .leaveScope t => .next (leaveScope t s)

/-- The request that carries a word: a transaction that completes, or an event. Bits that fit neither format are more
than one transaction moves (R39). Assumption 18. -/
def requestOf : Option Word → Request
  | some (.tx w) => .tx w .completes
  | some (.ev e) => .event e
  | none => .burst 0 0

end Sys2Proof.Machine
end

