-- ==== Sys2Proof/Machine/Step.lean ====
section
/-! DEFINITION. One step of the machine: the oldest request of the agenda is served (R44). -/

namespace Sys2Proof.Machine

/-- R5, R44: the next step of the total order. With nothing asked of it the block stays as it is (R147): assumption 1. -/
def step (s : State) : Host.Outcome State Fault Refusal :=
  match s.agenda with
  | [] => .next s
  | q :: rest => serve q { s with agenda := rest }

/-- `s` with the instruction whose table bits are `w` as the very next request. -/
def State.withFetchWord (s : State) (nbits w : Nat) : State :=
  { s with agenda := requestOf (wordOfBits nbits w) :: s.agenda }

end Sys2Proof.Machine
end

