-- ==== Sys2Proof/Safety.lean ====
section
/-! DEFINITION. The terms claims are stated in: what the flags of a step follow from, what a consistent state is, and
when a run counts as safe. -/

namespace Sys2Proof.Machine

/-- R32, R134: a claim about a run is one about a run in which nothing was refused. -/
abbrev Admitted (s : State) : Prop := s.refused = false

/-- R102, R103: whether the step from `s` to `t` raises pin `p`'s flag: its level changed and the change fires, or
(under `LEVEL_MISMATCH`) its level differs from its reference at the end of the step. -/
def raises (s t : State) (p : Pin) : Bool :=
  (level p t != level p s && fires p (level p t) t) || mismatched p t

/-- R102 to R104, R106, R107: the flags of a step from `s` to `t` that first left the flags `base`: a flag of `base`
stays and keeps its capture; another is set where the step raises it, with the level captured. -/
def FlagsFollow (base : Banked Byte) (s t : State) : Prop :=
  ∀ p, flag p t = (pinBit base p || raises s t p) ∧
    capture p t = if pinBit base p = false ∧ raises s t p = true then level p t else capture p s

/-- R26: bits 7 and 0 of the control register are never stored. -/
abbrev ControlReserved (s : State) : Prop := s.iocon.getLsbD 7 = false ∧ s.iocon.getLsbD 0 = false

/-- R96, R97: every pin whose level is fixed by its own bits and drive is at that level. -/
abbrev LevelsSettled (s : State) : Prop := ∀ p v, determined p s = some v → level p s = v

/-- R103: under `LEVEL_MISMATCH` every eligible pin that differs from its reference has its flag set. -/
abbrev MismatchFlagged (s : State) : Prop := ∀ p, mismatched p s = true → flag p s = true

/-- D1: the register map is injective. -/
abbrev MapInjective (s : State) : Prop := s.params.regmap.injective = true

/-- A consistent state: what reset gives and every step keeps. -/
abbrev Consistent (s : State) : Prop := ControlReserved s ∧ LevelsSettled s ∧ MismatchFlagged s ∧ MapInjective s

/-- R35: the driver operation opens this chip, if it opens any (assumption 12). -/
def OpensThisChip : DriverOp → Prop
  | .openDriver a _ => a = Config.chipAddr
  | .closeDriver | .setPinMode _ _ | .writePin _ _ | .readPin _ | .setInterruptEnabled _ _
  | .configureInterruptOutput _ | .setInterruptTriggerMode _ _ | .getInterruptFlags _ | .getInterruptPins _
  | .isInterruptOnPin _ _ | .getInterruptCapture _ | .clearAllInterrupts | .setSlewRateEnabled _
  | .setSequentialOperationEnabled _ => True

/-- A thread under way has a transaction still to issue: an operation returns in the very move that completes it. -/
def ThreadWaits (x : Thread) : Prop :=
  match x.phase with
  | .start => True
  | .running moved => ∃ op rest i, x.program = op :: rest ∧ op.next moved = .issue i

/-- Every thread is between moves. -/
def ThreadsWait (s : State) : Prop := ∀ x ∈ s.threads, ThreadWaits x

/-- R123, R130, R131: the operations that modify the control register. -/
def modifiesControl : DriverOp → Bool
  | .configureInterruptOutput _ | .setSlewRateEnabled _ | .setSequentialOperationEnabled _ => true
  | .openDriver _ _ | .closeDriver | .setPinMode _ _ | .writePin _ _ | .readPin _ | .setInterruptEnabled _ _
  | .setInterruptTriggerMode _ _ | .getInterruptFlags _ | .getInterruptPins _ | .isInterruptOnPin _ _
  | .getInterruptCapture _ | .clearAllInterrupts => false

/-- R85, R123: a thread that has read the control register in order to modify it holds a byte with bit 7 clear. -/
def ControlReadClear (x : Thread) : Prop :=
  ∀ op rest moved c, x.program = op :: rest → modifiesControl op = true → x.phase = .running moved → c ∈ moved →
    c.getLsbD 7 = false

end Sys2Proof.Machine
end

