-- ==== Sys2Proof/Certificates/Slice0/Obligations.lean ====
section
/-! DEFINITION. The statements for the provers, and the few terms they share. Each says in its docstring which rules of
spec/ it formalises; a rule's draws stay unconstrained in it. -/

namespace Sys2Proof.Claims

open Sys2Proof.Machine

/-- The completed reads of the pins' stored registers, each with the byte it returns. -/
def pinRegisterReads (s : State) : List (Instr × Byte) :=
  [(.rdIodirA, s.iodir.a), (.rdIodirB, s.iodir.b), (.rdGppuA, s.gppu.a), (.rdGppuB, s.gppu.b),
   (.rdOlatA, s.olat.a), (.rdOlatB, s.olat.b)]

/-- The completed reads of the interrupt logic's stored registers, each with the byte it returns. -/
def interruptRegisterReads (s : State) : List (Instr × Byte) :=
  [(.rdGpintenA, s.gpinten.a), (.rdGpintenB, s.gpinten.b), (.rdIntconA, s.intcon.a), (.rdIntconB, s.intcon.b),
   (.rdDefvalA, s.defval.a), (.rdDefvalB, s.defval.b), (.rdIntfA, s.intf.a), (.rdIntfB, s.intf.b)]

/-- The reads that have no side effect of their own (R41). -/
def plainReads : List Instr :=
  [.rdIodirA, .rdIodirB, .rdGppuA, .rdGppuB, .rdOlatA, .rdOlatB, .rdGpintenA, .rdGpintenB] ++
  [.rdIntconA, .rdIntconB, .rdDefvalA, .rdDefvalB, .rdIntfA, .rdIntfB, .rdIocon]

/-- The reads that acknowledge (R106). -/
def ackReads : List Instr := [.rdGpioA, .rdGpioB, .rdIntcapA, .rdIntcapB]

/-- The fifteen writes of a byte. -/
def writes (d : Byte) : List Instr :=
  [.wrIodirA d, .wrIodirB d, .wrGppuA d, .wrGppuB d, .wrOlatA d, .wrOlatB d, .wrGpintenA d, .wrGpintenB d] ++
  [.wrIntconA d, .wrIntconB d, .wrDefvalA d, .wrDefvalB d, .wrIntfA d, .wrIntfB d, .wrIocon d]

/-- The write of a bank's flag register. -/
def writeIntf : Bank → Byte → Instr
  | .bankA, d => .wrIntfA d
  | .bankB, d => .wrIntfB d

/-- The event that gives a pin a drive. -/
def eventOf : Drive → Pin → Instr
  | .d0, p => .evD0 p
  | .d1, p => .evD1 p
  | .z, p => .evZ p

/-- R97: a register of bank `b` that decides levels changed from `old` to `new`: the pins of the bank whose bit changed
are re-resolved, every other pin keeps its level. -/
def PinsReResolved (b : Bank) (old new : Banked Byte) (s t : State) : Prop :=
  (∀ p, bankOf p ≠ b ∨ pinBit old p = pinBit new p → level p t = level p s) ∧
    ∀ p v, bankOf p = b → pinBit old p ≠ pinBit new p → determined p t = some v → level p t = v

/-- R103, R104: `level_eval` for one pin, as the spec writes its loop. -/
def evalStep (s : State) (p : Pin) : State :=
  if s.params.triggerSense = .levelMismatch ∧ eligible p s = true ∧ pinBit s.intcon p = true ∧
      level p s ≠ pinBit s.defval p ∧ flag p s = false then
    { s with intf := putPin s.intf p true, cap := putPin s.cap p (level p s) }
  else s

/-- A state in which one thread is about to run one operation, by itself, with every transaction completing. -/
def alone (op : DriverOp) (k : Nat) (s : State) : State :=
  { s with threads := [⟨[op], .start, []⟩], agenda := List.replicate k (.move 0 .completes) }

/-- The operation, run by itself from `s`, returns `r` in `k` moves and leaves `t`. -/
def Returns (op : DriverOp) (k : Nat) (r : OpResult) (s t : State) : Prop :=
  Host.Core.run Sys2Proof.core k (alone op k s) = .next t ∧ t.threads = [⟨[], .start, [r]⟩]

/-- The registers no pin and no interrupt input decides are as before. -/
def SameInterruptSetting (s t : State) : Prop :=
  t.gpinten = s.gpinten ∧ t.intcon = s.intcon ∧ t.defval = s.defval ∧ t.iocon = s.iocon

/-- Threads `0` and `1` both read before either writes: the schedule of program P3. -/
def interleaved (a b : DriverOp) (s : State) : State :=
  { s with
    threads := [⟨[a], .start, []⟩, ⟨[b], .start, []⟩]
    agenda := [0, 1, 0, 0, 1, 1, 0, 0, 1, 1].map (fun t => .move t .completes) }

/-- One thread runs `getInterruptCapture`, and the event of word `w` falls between its flag reads and its capture reads; `k`
moves follow the capture reads. -/
def duringCapture (clear : Bool) (w : Word) (k : Nat) (s : State) : State :=
  { s with
    threads := [⟨[.getInterruptCapture clear], .start, []⟩]
    agenda := List.replicate 3 (.move 0 .completes) ++ requestOf (some w) :: List.replicate (2 + k) (.move 0 .completes) }

end Sys2Proof.Claims

open Sys2Proof Sys2Proof.Machine Sys2Proof.Claims

/-! ### Encoding -/

/-- R49, R50, R52, R54: under every injective register map every instruction's word decodes to that instruction. -/
def Obligations.DecodeOfEncode : Prop :=
  ∀ (m : RegMap) (i : Instr), m.injective = true → decode m (encode m i) = .instr i

/-- R54, R57: a word that decodes to an instruction is that instruction's word: no two words have one meaning. -/
def Obligations.EncodeOfDecode : Prop :=
  ∀ (m : RegMap) (w : Word) (i : Instr), decode m w = .instr i → encode m i = w

/-- R54: words of the table, one or more per family, under the default map of R53 (PRESUMED, assumption 8). -/
def Obligations.WordsOfTheOpcodeTable : Prop :=
  (∀ iw ∈ [(Instr.rdIodirA, 0x10000), (.rdGppuB, 0x10D00), (.rdOlatA, 0x11400), (.rdGpintenB, 0x10500),
      (.rdIntconA, 0x10800), (.rdDefvalB, 0x10700), (.rdIocon, 0x10A00), (.rdIntfA, 0x10E00), (.rdIntcapB, 0x11100),
      (.rdGpioA, 0x11200), (.wrIodirB 0x7F, 0x0017F), (.wrGppuA 0x08, 0x00C08), (.wrOlatB 0x02, 0x01502),
      (.wrGpintenA 0x01, 0x00401), (.wrIntconA 0x08, 0x00808), (.wrDefvalA 0x08, 0x00608), (.wrIocon 0x42, 0x00A42),
      (.wrIntfB 0x00, 0x00F00)], decodeTableWord 24 iw.2 = some iw.1) ∧
    ∀ iw ∈ [(Instr.evD0 0, 0x00), (.evD1 15, 0x1F), (.evZ 3, 0x23)], decodeTableWord 8 iw.2 = some iw.1

/-- R55 (and R134): a `TX` word at an address the register map does not decode is refused, read or write; no register
changes and no value is returned. Under the default map (PRESUMED, assumption 8) those are the addresses R55 lists. That
it is refused whatever the transport's verdict is DEDUCED (assumption 17), and that a refusal is a next state is the model's
choice (assumption 4). -/
def Obligations.UnmappedAddressRefused : Prop :=
  (∀ (s : State) (w : BitVec 17) (f : Fate) (rest : List Request), s.agenda = .tx w f :: rest →
    s.params.regmap.lookup (w.extractLsb' 8 8) = none →
    step s = .next { s with agenda := rest, fate := f, refused := true,
                            reply := .refused (.unmappedRegister (w.extractLsb' 8 8)) }) ∧
  ∀ a : Byte, RegMap.vendor.lookup a = none ↔ a = 0x02 ∨ a = 0x03 ∨ a = 0x0B ∨ 0x16 ≤ a.toNat

/-- R56, R86, R39: the other illegal encodings, and a transfer of more than one register in one transaction: each is
refused with no register changed, under any register map. That a transaction's word is refused whatever the transport's
verdict is DEDUCED (assumption 17), and that a refusal is a next state is the model's choice (assumption 4). -/
def Obligations.IllegalEncodingsRefused : Prop :=
  ∀ (s : State) (rest : List Request) (w : BitVec 17) (f : Fate) (r : Reg),
    (s.agenda = .tx w f :: rest → s.params.regmap.lookup (w.extractLsb' 8 8) = some r → w.getLsbD 16 = true →
      w.extractLsb' 0 8 ≠ 0 →
      step s = .next { s with agenda := rest, fate := f, refused := true, reply := .refused (.reservedField w.toNat) }) ∧
    (s.agenda = .tx w f :: rest → s.params.regmap.lookup (w.extractLsb' 8 8) = some r → w.getLsbD 16 = false →
      (∃ b, r = .paired .gpio b ∨ r = .paired .intcap b) →
      step s = .next { s with agenda := rest, fate := f, refused := true,
                              reply := .refused (.writeToReadOnly (w.extractLsb' 8 8)) }) ∧
    (s.agenda = .tx w f :: rest → s.params.regmap.lookup (w.extractLsb' 8 8) = some r → w.getLsbD 16 = false →
      r = .iocon → w.getLsbD 7 = true →
      step s = .next { s with agenda := rest, fate := f, refused := true,
                              reply := .refused (.reservedConfig (w.extractLsb' 0 8)) }) ∧
    (∀ e : BitVec 8, s.agenda = .event e :: rest → (e.extractLsb' 6 2 ≠ 0 ∨ e.extractLsb' 4 2 = 3) →
      step s = .next { s with agenda := rest, refused := true, reply := .refused (.reservedField e.toNat) }) ∧
    ∀ (a : Byte) (n : Nat), s.agenda = .burst a n :: rest →
      step s = .next { s with agenda := rest, refused := true, reply := .refused .multiByteTransfer }

/-- A step runs the decoded instruction: a transaction with the transport's verdict on it, an event as it is; and a word
of the opcode table placed as the next request is run by the very next step (how it is placed and numbered is the model's
choice, assumptions 1 and 18). -/
def Obligations.StepRunsDecodedWord : Prop :=
  (∀ (s : State) (w : BitVec 17) (f : Fate) (rest : List Request) (i : Instr), s.agenda = .tx w f :: rest →
    decode s.params.regmap (.tx w) = .instr i → step s = exec i { s with agenda := rest, fate := f }) ∧
  (∀ (s : State) (e : BitVec 8) (rest : List Request) (i : Instr), s.agenda = .event e :: rest →
    decode s.params.regmap (.ev e) = .instr i → step s = exec i { s with agenda := rest }) ∧
  ∀ (s : State) (nbits w : Nat) (i : Instr), s.params.regmap = RegMap.vendor → decodeTableWord nbits w = some i →
    step (s.withFetchWord nbits w) = exec i (if nbits ≤ 8 then s else { s with fate := .completes })

/-! ### Reads -/

/-- R61, R63, R65, R67, R69, R71: RD_IODIRA/B, RD_GPPUA/B, RD_OLATA/B complete with the stored byte; nothing but the
reply changes, and flags only as `level_eval` says. -/
def Obligations.ReadPinRegisters : Prop :=
  ∀ s : State, s.fate = .completes → ∀ iv ∈ pinRegisterReads s,
    ∃ t, exec iv.1 s = .next t ∧ t = { s with intf := t.intf, cap := t.cap, reply := .value iv.2 } ∧
      FlagsFollow s.intf s t

/-- R73, R75, R77, R79, R81, R83, R87, R89: RD_GPINTENA/B, RD_INTCONA/B, RD_DEFVALA/B, RD_INTFA/B complete with the
stored byte; a read of the flags does not clear them (C3). -/
def Obligations.ReadInterruptRegisters : Prop :=
  ∀ s : State, s.fate = .completes → ∀ iv ∈ interruptRegisterReads s,
    ∃ t, exec iv.1 s = .next t ∧ t = { s with intf := t.intf, cap := t.cap, reply := .value iv.2 } ∧
      FlagsFollow s.intf s t

/-- R85: RD_IOCON completes with the stored bits 7 to 1; bit 0 is a draw. -/
def Obligations.ReadControlRegister : Prop :=
  ∀ s : State, s.fate = .completes →
    ∃ t v, exec .rdIocon s = .next t ∧
      t = { s with intf := t.intf, cap := t.cap, draws := t.draws, reply := .value v } ∧
      (∀ k, 1 ≤ k → v.getLsbD k = s.iocon.getLsbD k) ∧ FlagsFollow s.intf s t

/-- R91, R92: RD_INTCAPA/B complete with the captured level of every flagged pin of the bank (any other bit is a draw),
and acknowledge the bank: its flags are cleared first, its captures kept. -/
def Obligations.ReadCaptureRegister : Prop :=
  ∀ (s : State) (b : Bank), s.fate = .completes →
    ∃ t v, exec (readReg .intcap b) s = .next t ∧
      t = { s with intf := t.intf, cap := t.cap, draws := t.draws, reply := .value v } ∧
      (∀ p, bankOf p = b → flag p s = true → v.getLsbD (bitOf p) = capture p s) ∧
      FlagsFollow (s.intf.set b 0) s t

/-- R93, R94 (and R20, R106): RD_GPIOA/B complete with the levels of the bank's pins and acknowledge the bank. -/
def Obligations.ReadInputRegister : Prop :=
  ∀ (s : State) (b : Bank), s.fate = .completes →
    ∃ t v, exec (readReg .gpio b) s = .next t ∧
      t = { s with intf := t.intf, cap := t.cap, reply := .value v } ∧
      (∀ p, bankOf p = b → v.getLsbD (bitOf p) = level p s) ∧ FlagsFollow (s.intf.set b 0) s t

/-! ### Writes -/

/-- R62, R64: WR_IODIRA/B store the byte and re-resolve exactly the pins whose direction changed. -/
def Obligations.WriteDirectionRegister : Prop :=
  ∀ (s : State) (b : Bank) (d : Byte), s.fate = .completes →
    ∃ t, exec (writeIodir b d) s = .next t ∧
      t = { s with iodir := s.iodir.set b d, lvl := t.lvl, intf := t.intf, cap := t.cap, draws := t.draws,
                   reply := .written d } ∧
      PinsReResolved b s.iodir t.iodir s t ∧ FlagsFollow s.intf s t

/-- R66, R68, R97: WR_GPPUA/B store the byte and re-resolve exactly the pins whose pull-up changed (a pin that nothing
fixes too: DEDUCED, assumption 27). -/
def Obligations.WritePullUpRegister : Prop :=
  ∀ (s : State) (b : Bank) (d : Byte), s.fate = .completes →
    ∃ t, exec (writeGppu b d) s = .next t ∧
      t = { s with gppu := s.gppu.set b d, lvl := t.lvl, intf := t.intf, cap := t.cap, draws := t.draws,
                   reply := .written d } ∧
      PinsReResolved b s.gppu t.gppu s t ∧ FlagsFollow s.intf s t

/-- R70, R72, R97: WR_OLATA/B store the byte and re-resolve exactly the pins whose latch bit changed (a floating input too:
DEDUCED, assumption 27). -/
def Obligations.WriteLatchRegister : Prop :=
  ∀ (s : State) (b : Bank) (d : Byte), s.fate = .completes →
    ∃ t, exec (writeOlat b d) s = .next t ∧
      t = { s with olat := s.olat.set b d, lvl := t.lvl, intf := t.intf, cap := t.cap, draws := t.draws,
                   reply := .written d } ∧
      PinsReResolved b s.olat t.olat s t ∧ FlagsFollow s.intf s t

/-- R74, R76, R78, R80, R82, R84: WR_GPINTENA/B, WR_INTCONA/B, WR_DEFVALA/B store the byte; no level changes, flags
already set stay set, and new ones come from `level_eval` alone. -/
def Obligations.WriteInterruptSetting : Prop :=
  ∀ (s : State) (b : Bank) (d : Byte), s.fate = .completes →
    (∃ t, exec (writeGpinten b d) s = .next t ∧
      t = { s with gpinten := s.gpinten.set b d, intf := t.intf, cap := t.cap, reply := .written d } ∧
      FlagsFollow s.intf s t) ∧
    (∃ t, exec (writeIntcon b d) s = .next t ∧
      t = { s with intcon := s.intcon.set b d, intf := t.intf, cap := t.cap, reply := .written d } ∧
      FlagsFollow s.intf s t) ∧
    ∃ t, exec (writeDefval b d) s = .next t ∧
      t = { s with defval := s.defval.set b d, intf := t.intf, cap := t.cap, reply := .written d } ∧
      FlagsFollow s.intf s t

/-- R86: a completed WR_IOCON stores bits 6 to 1 of a byte whose bit 7 is 0, and clears the rest; a byte whose bit 7 is 1 is
refused. That it is refused whatever the transport's verdict is DEDUCED (assumption 17), and that a refusal is a next state is
the model's choice (assumption 4). -/
def Obligations.WriteControlRegister : Prop :=
  ∀ (s : State) (d : Byte),
    (d.getLsbD 7 = false → s.fate = .completes →
      ∃ t, exec (.wrIocon d) s = .next t ∧
        t = { s with iocon := t.iocon, intf := t.intf, cap := t.cap, reply := .written d } ∧
        (∀ k, t.iocon.getLsbD k = (decide (1 ≤ k ∧ k ≤ 6) && d.getLsbD k)) ∧ FlagsFollow s.intf s t) ∧
    (d.getLsbD 7 = true → exec (.wrIocon d) s = .next { s with refused := true, reply := .refused (.reservedConfig d) })

/-- R88, R90, R107: WR_INTFA/B clear the flags of the bank written 0, under `CLEAR_ON_ZERO`, and none under `IGNORED`;
they never set one and never change a capture. -/
def Obligations.WriteFlagRegister : Prop :=
  ∀ (s : State) (b : Bank) (d : Byte), s.fate = .completes →
    ∃ t, exec (writeIntf b d) s = .next t ∧
      t = { s with intf := t.intf, cap := t.cap, reply := .written d } ∧
      (s.params.intfWrite = .clearOnZero → FlagsFollow (s.intf.set b (s.intf.get b &&& d)) s t) ∧
      (s.params.intfWrite = .ignored → FlagsFollow s.intf s t) ∧
      (s.params.triggerSense = .edgeToRef → t.cap = s.cap ∧
        ∀ p, flag p t = (flag p s && (d.getLsbD (bitOf p) || bankOf p != b || s.params.intfWrite == .ignored)))

/-! ### Pins -/

/-- R96: the resolved level, row by row of the spec's rule; contention and a floating input are draws, of which nothing
is said (the pull-up's level is PRESUMED by the spec itself, assumption 24). -/
def Obligations.ResolutionRows : Prop :=
  ∀ (s : State) (p : Pin),
    (pinBit s.iodir p = false → s.ext.get p = .z → resolve p s = pinBit s.olat p) ∧
    (pinBit s.iodir p = false → s.ext.get p = driveOf (pinBit s.olat p) → resolve p s = pinBit s.olat p) ∧
    (pinBit s.iodir p = false → s.ext.get p = driveOf (!pinBit s.olat p) → determined p s = none) ∧
    (pinBit s.iodir p = true → s.ext.get p = .d0 → resolve p s = false) ∧
    (pinBit s.iodir p = true → s.ext.get p = .d1 → resolve p s = true) ∧
    (pinBit s.iodir p = true → s.ext.get p = .z → pinBit s.gppu p = true → resolve p s = true) ∧
    (pinBit s.iodir p = true → s.ext.get p = .z → pinBit s.gppu p = false → determined p s = none)

/-- R98, R99, R100: EV_D0, EV_D1, EV_Z set the drive of their pin, re-resolve that pin alone, and change nothing else but
flags as the multiplexer says; they complete whatever the transport does (a contended output already at `D0` is re-resolved
too: DEDUCED, assumption 28). -/
def Obligations.PinEventResolvesPin : Prop :=
  ∀ (s : State) (p : Pin) (v : Drive),
    ∃ t, exec (eventOf v p) s = .next t ∧
      t = { s with ext := s.ext.set p v, lvl := t.lvl, intf := t.intf, cap := t.cap, draws := t.draws } ∧
      (∀ q, q ≠ p → level q t = level q s) ∧ (∀ l, determined p t = some l → level p t = l) ∧ FlagsFollow s.intf s t

/-- R97: a level changes only by an event on its pin, or by a write that changes its bit of IODIR, GPPU or OLAT. -/
def Obligations.LevelChangesOnlyAtResolution : Prop :=
  ∀ (i : Instr) (s t : State) (p : Pin), exec i s = .next t → level p t ≠ level p s →
    (∃ v, i = eventOf v p) ∨
      ∃ d, (i = writeIodir (bankOf p) d ∧ d.getLsbD (bitOf p) ≠ pinBit s.iodir p) ∨
        (i = writeGppu (bankOf p) d ∧ d.getLsbD (bitOf p) ≠ pinBit s.gppu p) ∨
        (i = writeOlat (bankOf p) d ∧ d.getLsbD (bitOf p) ≠ pinBit s.olat p)

/-- R31: the external drive of a pin is written only by an event on that pin. -/
def Obligations.DriveWrittenOnlyByEvents : Prop :=
  ∀ (i : Instr) (s t : State) (p : Pin), exec i s = .next t → t.ext.get p ≠ s.ext.get p → ∃ v, i = eventOf v p

/-! ### Flags -/

/-- R102: the three trigger modes under `EDGE_TO_REF`, on an enabled input pin whose flag is clear: ON_CHANGE (control 0)
fires on both edges, ON_RISING_EDGE (control 1, reference 1) on a rising edge only, ON_FALLING_EDGE (control 1, reference
0) on a falling edge only; the capture is the new level. -/
def Obligations.TriggerModesUnderEdge : Prop :=
  ∀ (s : State) (p : Pin), s.params.triggerSense = .edgeToRef → pinBit s.iodir p = true → pinBit s.gpinten p = true →
    flag p s = false →
    (level p s = false → ∃ t, exec (.evD1 p) s = .next t ∧ flag p t = (!pinBit s.intcon p || pinBit s.defval p) ∧
      (flag p t = true → capture p t = true)) ∧
    (level p s = true → ∃ t, exec (.evD0 p) s = .next t ∧ flag p t = (!pinBit s.intcon p || !pinBit s.defval p) ∧
      (flag p t = true → capture p t = false))

/-- R101, R104: a flag that rises belongs to an eligible pin, whose capture is its level at that moment; and its level
changed, or the level condition of `LEVEL_MISMATCH` (R103) holds of it: in reference mode it differs from its reference. -/
def Obligations.RisingFlagIsEligible : Prop :=
  ∀ (i : Instr) (s t : State) (p : Pin), exec i s = .next t → flag p s = false → flag p t = true →
    pinBit t.gpinten p = true ∧ (t.params.iocOnOutputs = true ∨ pinBit t.iodir p = true) ∧
      capture p t = level p t ∧ (level p t ≠ level p s ∨ mismatched p t = true)

/-- R108, R104: a set flag and its capture stay until a read of GPIO or INTCAP of its bank or a write of 0 to its bit of
INTF under `CLEAR_ON_ZERO`. -/
def Obligations.FlagStaysUntilAcknowledged : Prop :=
  ∀ (i : Instr) (s t : State) (p : Pin), exec i s = .next t → flag p s = true →
    (flag p t = true ∧ capture p t = capture p s) ∨ i = readReg .gpio (bankOf p) ∨ i = readReg .intcap (bankOf p) ∨
      ∃ d, i = writeIntf (bankOf p) d ∧ d.getLsbD (bitOf p) = false ∧ s.params.intfWrite = .clearOnZero

/-- R105: under `EDGE_TO_REF` one step raises flags of one bank only. -/
def Obligations.OneBankRaisedPerStep : Prop :=
  ∀ (i : Instr) (s t : State) (p q : Pin), s.params.triggerSense = .edgeToRef → exec i s = .next t →
    flag p s = false → flag p t = true → flag q s = false → flag q t = true → bankOf p = bankOf q

/-- R103: the model's `level_eval`, which works field by field, is the spec's loop over the pins, ascending. -/
def Obligations.LevelEvalIsTheLoop : Prop := ∀ s : State, levelEval s = allPins.foldl evalStep s

/-- R103: under `LEVEL_MISMATCH`, bank by bank: the flags gained are those of the enabled pins in reference mode whose
level differs from the reference, and, unless outputs may trigger, that are inputs. -/
def Obligations.LevelEvalBitwise : Prop :=
  ∀ (s : State) (b : Bank), s.params.triggerSense = .levelMismatch →
    (levelEval s).intf.get b = s.intf.get b |||
      (s.gpinten.get b &&& s.intcon.get b &&& (s.lvl.get b ^^^ s.defval.get b) &&&
        (if s.params.iocOnOutputs then 0xFF else s.iodir.get b))

/-- R109, R110: what the interrupt outputs drive (general knowledge in the spec itself, assumption 24). -/
def Obligations.InterruptOutputDrive : Prop :=
  ∀ (s : State) (b : Bank),
    (s.iocon.getLsbD 6 = false → (intActive b s = true ↔ s.intf.get b ≠ 0)) ∧
    (s.iocon.getLsbD 6 = true → (intActive b s = true ↔ s.intf.a ≠ 0 ∨ s.intf.b ≠ 0)) ∧
    (s.iocon.getLsbD 2 = true → intDrive b s = if intActive b s then .d0 else .z) ∧
    (s.iocon.getLsbD 2 = false → intActive b s = true → intDrive b s = if s.iocon.getLsbD 1 then .d1 else .d0) ∧
    (s.iocon.getLsbD 2 = false → intActive b s = false → intDrive b s = if s.iocon.getLsbD 1 then .d0 else .d1)

/-- R141, R106: under `EDGE_TO_REF` an acknowledging read deasserts the bank's interrupt output, unless the outputs are
mirrored and the other bank is pending. -/
def Obligations.AcknowledgeDeassertsOutput : Prop :=
  ∀ (s : State) (b c : Bank) (k : Kind), s.fate = .completes → s.params.triggerSense = .edgeToRef → c ≠ b →
    (k = .gpio ∨ k = .intcap) →
    ∃ t, exec (readReg k b) s = .next t ∧ t.intf = s.intf.set b 0 ∧ t.cap = s.cap ∧
      intActive b t = (s.iocon.getLsbD 6 && s.intf.get c != 0)

/-! ### The whole machine -/

/-- R132, R133: no step faults and none stops: every request completes with a next state (that a refusal is a next state,
and that a step with nothing asked of it is one, are the model's choices, assumptions 4 and 1). -/
def Obligations.EveryStepCompletes : Prop := ∀ s : State, ∃ t, step s = .next t

/-- R32: every refusal sets `refused`, and no step clears it. -/
def Obligations.RefusedNeverCleared : Prop :=
  (∀ (r : RefuseReason) (s t : State), refuse r s = .next t → t.refused = true) ∧
    ∀ s t : State, step s = .next t → s.refused = true → t.refused = true

/-- R134: an instruction that is refused (one whose `exec` sets `refused`) changes no register, level or drive and returns
no value; that its refusal is a next state is the model's choice (assumption 4). The words the decoder refuses, which are no
instructions, and bursts are in `UnmappedAddressRefused` and `IllegalEncodingsRefused`. -/
def Obligations.RefusalChangesNoRegister : Prop :=
  ∀ (s t : State) (i : Instr), exec i s = .next t → s.refused = false → t.refused = true →
    ∃ r, t = { s with refused := true, reply := .refused r }

/-- R135: a failed transaction: a plain read changes nothing; an acknowledging read or a write either was not made (only
the draw is spent) or had the full effect it has when it completes; no value is given. That no `level_eval` follows a transaction
that was not made (R135 against R103 and R60) is DEDUCED (assumption 16). -/
def Obligations.FailedTransaction : Prop :=
  ∀ (s : State) (i : Instr), s.fate = .fails →
    (i ∈ plainReads → exec i s = .next { s with reply := .failed }) ∧
    (i ∈ ackReads ∨ (∃ d, i ∈ writes d) → i.WellFormed →
      exec i s = .next { s with draws := s.draws + 1, reply := .failed } ∨
        ∃ u, exec i { s with draws := s.draws + 1, fate := .completes } = .next u ∧
          exec i s = .next { u with fate := .fails, reply := .failed })

/-- R142: the chip does not look at the host: the same instruction does the same whatever the handle, the threads and the
requests still to come, and touches none of them. -/
def Obligations.ChipIgnoresTheHost : Prop :=
  ∀ (i : Instr) (s t : State) (h : Handle) (ths : List Thread) (ag : List Request), exec i s = .next t →
    exec i { s with handle := h, threads := ths, agenda := ag } = .next { t with handle := h, threads := ths, agenda := ag }

/-- R7: no step changes a parameter of the launch. -/
def Obligations.ParametersAreFixed : Prop := ∀ s t : State, step s = .next t → t.params = s.params

/-- R148, R149: power-on reset, under any parameters and any drive of the pins: the reset value of every register, every
level resolved, no flag (every value but IODIR's is the family's, PRESUMED, assumption 7). -/
def Obligations.PowerOnState : Prop :=
  ∀ (params : Params) (ext : Vector Drive 16), ∃ s, powerOn params ext = s ∧
    s.iodir = ⟨0xFF, 0xFF⟩ ∧ s.gppu = ⟨0, 0⟩ ∧ s.olat = ⟨0, 0⟩ ∧ s.gpinten = ⟨0, 0⟩ ∧ s.intcon = ⟨0, 0⟩ ∧
    s.defval = ⟨0, 0⟩ ∧ s.intf = ⟨0, 0⟩ ∧ s.cap = ⟨0, 0⟩ ∧ s.iocon = 0 ∧ s.ext = ext ∧ s.refused = false ∧
    s.handle = .closed ∧ s.params = params ∧ ∀ p v, determined p s = some v → level p s = v

/-- The model's reset state is power-on reset with every pin driven low (the model's choice of the open launch parameter
`ext`, assumption 6) and the default parameters (assumptions 8 to 11). -/
def Obligations.ResetIsPowerOnAllLow : Prop :=
  State.reset = powerOn launchParams (Vector.replicate 16 .d0)

/-- The invariant holds at reset (whose values rest on assumptions 6 to 11). -/
def Obligations.ConsistentAtReset : Prop := Consistent State.reset

/-- HEADLINE. R26, R96, R97, R103: every step, of any agent, keeps the state consistent: bits 7 and 0 of the control
register stay 0, every pin whose level is fixed is at that level, under `LEVEL_MISMATCH` every differing eligible pin is
flagged, and the register map stays injective. -/
def Obligations.StepKeepsConsistent : Prop := ∀ s t : State, Consistent s → step s = .next t → Consistent t

/-- R29: bit `p` of the 16-bit view of a bank pair is pin `p`: bank B high, bank A low. -/
def Obligations.LogicalViewBits : Prop :=
  ∀ (x : Banked Byte) (p : Pin), (view16 x).getLsbD p.val = pinBit x p

/-! ### The host's operations -/

/-- An operation returns in the very move that completes it: every thread under way has a transaction still to issue (the model's
choice, assumption 13). -/
def Obligations.ThreadsStayBetweenMoves : Prop := ∀ s t : State, ThreadsWait s → step s = .next t → ThreadsWait t

/-- R123, R85: a host read-modify-write of the control register is never refused, since bit 7 reads 0. -/
def Obligations.DriverIsNeverRefused : Prop :=
  ∀ (s t : State) (n : Nat) (f : Fate), ControlReserved s → (∀ x ∈ s.threads, ControlReadClear x) →
    serve (.move n f) s = .next t →
    t.refused = s.refused ∧ ControlReserved t ∧ ∀ x ∈ t.threads, ControlReadClear x

/-- R113: an operation other than `open` and `close` on a handle that is not open returns `Err(OpenFailure)` and issues
no transaction. -/
def Obligations.ClosedHandleFailsFast : Prop :=
  ∀ (s : State) (n : Nat) (x : Thread) (op : DriverOp) (rest : List DriverOp), s.threads[n]? = some x →
    x.program = op :: rest → x.phase = .start → s.handle ≠ .opened → op ≠ .closeDriver →
    (∀ a path, op ≠ .openDriver a path) →
    moveThread n s = .next { s with threads := s.threads.set n ⟨rest, .start, x.results ++ [.err .openFailure]⟩ }

/-- R114: on an open handle an invalid pin index gives the documented result, with no transaction. -/
def Obligations.InvalidPinIssuesNothing : Prop :=
  ∀ (s : State) (n : Nat) (x : Thread) (rest : List DriverOp) (p : Int), s.threads[n]? = some x → x.phase = .start →
    s.handle = .opened → (p < 0 ∨ 15 < p) →
    ∀ (m : PinMode) (v : Level) (e c : Bool) (g : TriggerMode),
      ∀ opr ∈ [(DriverOp.setPinMode p m, OpResult.err .invalidPinIndex), (.writePin p v, .err .invalidPinIndex),
        (.readPin p, .reading .error), (.setInterruptEnabled p e, .err .invalidPinIndex),
        (.setInterruptTriggerMode p g, .err .invalidPinIndex), (.isInterruptOnPin p c, .onPin false)],
      x.program = opr.1 :: rest →
      moveThread n s = .next { s with threads := s.threads.set n ⟨rest, .start, x.results ++ [opr.2]⟩ }

/-- R115, R117: a failed transaction stops the operation at once with `Err(TransactionFailure)`; one of `open` leaves the
handle unusable with `Err(OpenFailure)`, for every chip address (the model's choice, assumption 12). What the transaction
did to the chip stays. -/
def Obligations.FailedTransactionAborts : Prop :=
  ∀ (s t : State) (n : Nat) (x : Thread) (op : DriverOp) (rest : List DriverOp) (moved : List Byte) (i : Instr),
    s.threads[n]? = some x → x.program = op :: rest → x.phase = .running moved → op.next moved = .issue i →
    exec i s = .next t → t.reply = .failed →
    ((∀ a path, op ≠ .openDriver a path) →
      moveThread n s =
        .next { t with threads := t.threads.set n ⟨rest, .start, x.results ++ [.err .transactionFailure]⟩ }) ∧
    ∀ a path, op = .openDriver a path →
      moveThread n s = .next { t with handle := .unusable,
                                      threads := t.threads.set n ⟨rest, .start, x.results ++ [.err .openFailure]⟩ }

/-- R117, R118: `open` on a transport that opens, its writes completing: the handle is open and every pin an input; on one
that does not, the handle is unusable, the result `Err(OpenFailure)`, and the chip is as before. `close` closes an open
handle, does nothing to another, and issues no transaction. The model's choices in it: it holds for every chip address, since
every `open` is taken to select this chip (assumption 12); and for a handle already open, and with `Ok` as the result of
`close` (assumption 13). -/
def Obligations.OpenAndClose : Prop :=
  ∀ (s : State) (a : BitVec 7) (path : String),
    (∃ t, Returns (.openDriver a path) 3 .ok s t ∧ t.handle = .opened ∧ t.iodir = ⟨0xFF, 0xFF⟩ ∧ t.gppu = s.gppu ∧
      t.olat = s.olat ∧ SameInterruptSetting s t) ∧
    moveThread 0 { s with threads := [⟨[.openDriver a path], .start, []⟩], fate := .fails } =
      .next { s with threads := [⟨[], .start, [.err .openFailure]⟩], fate := .fails, handle := .unusable } ∧
    moveThread 0 { s with threads := [⟨[.closeDriver], .start, []⟩] } =
      .next { s with threads := [⟨[], .start, [.ok]⟩], handle := if s.handle = .opened then .closed else s.handle }

/-- R119: `setPinMode` by itself: direction and pull-up of the pin as the mode says, every other pin's as before. -/
def Obligations.SetPinModeEncodes : Prop :=
  ∀ (s : State) (p : Pin) (mode : PinMode), s.handle = .opened →
    ∃ t, Returns (.setPinMode p.val mode) 5 .ok s t ∧ t.olat = s.olat ∧ SameInterruptSetting s t ∧
      (∀ q, pinBit t.iodir q = if q = p then mode != .output else pinBit s.iodir q) ∧
      ∀ q, pinBit t.gppu q = if q = p then mode == .inputWithPullup else pinBit s.gppu q

/-- R120: `writePin` by itself: the pin's latch bit is the value, every other latch bit as before. -/
def Obligations.WritePinKeepsOthers : Prop :=
  ∀ (s : State) (p : Pin) (v : Level), s.handle = .opened →
    ∃ t, Returns (.writePin p.val v) 3 .ok s t ∧ t.iodir = s.iodir ∧ t.gppu = s.gppu ∧ SameInterruptSetting s t ∧
      ∀ q, pinBit t.olat q = if q = p then v == .high else pinBit s.olat q

/-- R121, R156: `readPin` by itself returns the pin's level, and acknowledges its bank: under `EDGE_TO_REF` the bank's
flags are cleared. -/
def Obligations.ReadPinAcknowledgesBank : Prop :=
  ∀ (s : State) (p : Pin), s.handle = .opened →
    ∃ t, Returns (.readPin p.val) 2 (.reading (if level p s then .high else .low)) s t ∧ t.lvl = s.lvl ∧
      (s.params.triggerSense = .edgeToRef → t.intf = s.intf.set (bankOf p) 0)

/-- R122: `setInterruptEnabled` by itself: the pin's enable bit, every other as before. -/
def Obligations.SetInterruptEnabledOneBit : Prop :=
  ∀ (s : State) (p : Pin) (e : Bool), s.handle = .opened →
    ∃ t, Returns (.setInterruptEnabled p.val e) 3 .ok s t ∧ t.iodir = s.iodir ∧ t.gppu = s.gppu ∧ t.olat = s.olat ∧
      t.lvl = s.lvl ∧ t.intcon = s.intcon ∧ t.defval = s.defval ∧ t.iocon = s.iocon ∧
      ∀ q, pinBit t.gpinten q = if q = p then e else pinBit s.gpinten q

/-- R123: `configureInterruptOutput` by itself: polarity (forced clear with open-drain), open-drain and mirror bits of the
control register; its bits 3, 4 and 5 as before. -/
def Obligations.ConfigureOutputBits : Prop :=
  ∀ (s : State) (c : OutputConfig), s.handle = .opened → ControlReserved s →
    ∃ t, Returns (.configureInterruptOutput c) 3 .ok s t ∧ t.iocon.getLsbD 1 = (c.activePolarity == .high && !c.openDrain) ∧
      t.iocon.getLsbD 2 = c.openDrain ∧ t.iocon.getLsbD 6 = c.mirrored ∧ ControlReserved t ∧
      (∀ k, 3 ≤ k → k ≤ 5 → t.iocon.getLsbD k = s.iocon.getLsbD k) ∧ t.refused = s.refused

/-- R130, R131: the two toggles by themselves: bit 4 or bit 5 of the control register is `not enabled`, bits 1 to 6 other
than that as before. -/
def Obligations.ControlToggles : Prop :=
  ∀ (s : State) (e : Bool), s.handle = .opened → ControlReserved s →
    (∃ t, Returns (.setSlewRateEnabled e) 3 .ok s t ∧ t.refused = s.refused ∧
      ∀ k, t.iocon.getLsbD k = if k = 4 then !e else s.iocon.getLsbD k) ∧
    ∃ t, Returns (.setSequentialOperationEnabled e) 3 .ok s t ∧ t.refused = s.refused ∧
      ∀ k, t.iocon.getLsbD k = if k = 5 then !e else s.iocon.getLsbD k

/-- R124: `setInterruptTriggerMode` by itself: the control and the reference bit of the pin as the mode says (`ON_CHANGE`
leaves the reference), every other bit as before. -/
def Obligations.SetTriggerModeEncodes : Prop :=
  ∀ (s : State) (p : Pin) (g : TriggerMode), s.handle = .opened →
    ∃ t, Returns (.setInterruptTriggerMode p.val g) 5 .ok s t ∧ t.iodir = s.iodir ∧ t.gppu = s.gppu ∧ t.olat = s.olat ∧
      t.lvl = s.lvl ∧ t.gpinten = s.gpinten ∧ t.iocon = s.iocon ∧
      (∀ q, pinBit t.intcon q = if q = p then g != .onChange else pinBit s.intcon q) ∧
      ∀ q, pinBit t.defval q = if q = p ∧ g ≠ .onChange then g == .onRisingEdge else pinBit s.defval q

/-- R125: `getInterruptFlags` by itself, under `EDGE_TO_REF`: the sixteen flags, bank B high; not clearing leaves them,
clearing zeroes them under `CLEAR_ON_ZERO` and leaves them under `IGNORED`. -/
def Obligations.GetInterruptFlags : Prop :=
  ∀ s : State, s.handle = .opened → s.params.triggerSense = .edgeToRef →
    (∃ t, Returns (.getInterruptFlags false) 3 (.flags (view16 s.intf)) s t ∧ t.intf = s.intf) ∧
    ∃ t, Returns (.getInterruptFlags true) 5 (.flags (view16 s.intf)) s t ∧
      (s.params.intfWrite = .clearOnZero → t.intf = ⟨0, 0⟩) ∧ (s.params.intfWrite = .ignored → t.intf = s.intf)

/-- R126, R127: the two other views of the flags by themselves, under `EDGE_TO_REF`: the flagged pins in ascending order,
and whether a pin is one of them; not clearing leaves the flags, clearing zeroes those of both banks under `CLEAR_ON_ZERO` and
leaves them under `IGNORED`. -/
def Obligations.FlagViews : Prop :=
  ∀ (s : State) (p : Pin) (clear : Bool), s.handle = .opened → s.params.triggerSense = .edgeToRef →
    (∃ t ps, Returns (.getInterruptPins clear) (if clear then 5 else 3) (.pins ps) s t ∧ List.Pairwise (· < ·) ps ∧
      (∀ q, q ∈ ps ↔ flag q s = true) ∧
      t.intf = if clear = true ∧ s.params.intfWrite = .clearOnZero then ⟨0, 0⟩ else s.intf) ∧
    ∃ t, Returns (.isInterruptOnPin p.val clear) (if clear then 5 else 3) (.onPin (flag p s)) s t ∧
      t.intf = if clear = true ∧ s.params.intfWrite = .clearOnZero then ⟨0, 0⟩ else s.intf

/-- R128: `getInterruptCapture` by itself, under `EDGE_TO_REF`: one entry per flagged pin, ascending, with the level it
was captured at (never a draw); the flags are cleared, with or without `clear` (R157), which adds one read per entry. -/
def Obligations.GetInterruptCapture : Prop :=
  ∀ s : State, s.handle = .opened → s.params.triggerSense = .edgeToRef →
    ∃ out : List (Pin × Bool), List.Pairwise (fun x y => x.1 < y.1) out ∧
      (∀ e, e ∈ out ↔ flag e.1 s = true ∧ e.2 = capture e.1 s) ∧
      (∃ t, Returns (.getInterruptCapture false) 5 (.captures out) s t ∧ t.intf = ⟨0, 0⟩) ∧
      ∃ t, Returns (.getInterruptCapture true) (5 + out.length) (.captures out) s t ∧ t.intf = ⟨0, 0⟩

/-- R129: `clearAllInterrupts` by itself, under `EDGE_TO_REF`, leaves no flag, whatever `INTF_WRITE` is. -/
def Obligations.ClearAllInterrupts : Prop :=
  ∀ s : State, s.handle = .opened → s.params.triggerSense = .edgeToRef →
    ∃ t, Returns .clearAllInterrupts 5 .ok s t ∧ t.intf = ⟨0, 0⟩ ∧ t.cap = s.cap

/-- R153: the lost update: two threads make different pins of one bank outputs, both reading before either writes; both
return `Ok`, and the first pin's direction is what it was. -/
def Obligations.LostUpdate : Prop :=
  ∀ (s : State) (p q : Pin), s.handle = .opened → p ≠ q → bankOf p = bankOf q →
    ∃ t, Host.Core.run Sys2Proof.core 10 (interleaved (.setPinMode p.val .output) (.setPinMode q.val .output) s) = .next t ∧
      t.threads = [⟨[], .start, [.ok]⟩, ⟨[], .start, [.ok]⟩] ∧ pinBit t.iodir p = pinBit s.iodir p ∧
      pinBit t.iodir q = false

/-- R157: the flag/capture window, under `EDGE_TO_REF`: an event that sets the clear flag of a pin (any drive, in either
comparison mode, rising or falling) and falls between the flag reads and the capture reads of `getInterruptCapture`, clearing
or not, is acknowledged unreported: the flag is clear again, and the level is left in the capture alone. -/
def Obligations.CaptureWindowLosesTrigger : Prop :=
  ∀ (s u : State) (p : Pin) (d : Drive) (clear : Bool), s.handle = .opened → s.params.triggerSense = .edgeToRef →
    flag p s = false → exec (eventOf d p) s = .next u → flag p u = true →
    ∃ t out, Host.Core.run Sys2Proof.core (6 + if clear then out.length else 0)
        (duringCapture clear (eventWord d p) (if clear then out.length else 0) s) = .next t ∧
      t.threads = [⟨[], .start, [.captures out]⟩] ∧ (∀ e ∈ out, e.1 ≠ p) ∧ flag p t = false ∧
      capture p t = level p u

/-- R118: a thread that leaves the scope of its driver instance between operations releases the transport, whatever it had
still to run and whatever results, errors among them, it has got: an open handle is closed, any other is left, no transaction
is issued and nothing else changes. In the middle of an operation it leaves nothing. Which event ends a scope is the model's
choice (assumption 26). -/
def Obligations.ScopeEndReleases : Prop :=
  ∀ (s : State) (n : Nat) (x : Thread) (rest : List Request), s.agenda = .leaveScope n :: rest → s.threads[n]? = some x →
    (x.phase = .start →
      step s = .next { s with agenda := rest, threads := s.threads.set n ⟨[], .start, x.results⟩,
                              handle := if s.handle = .opened then .closed else s.handle }) ∧
    ∀ moved, x.phase = .running moved → step s = .next { s with agenda := rest }
end

