-- ==== Sys2Proof/Laws/Bits.lean ====
section
/-! SUPPORT. What a bank-paired register holds pin by pin: reading a pin's bit after writing one, or after writing a
whole bank. -/

namespace Sys2Proof

@[simp] theorem Banked.get_set_same {α : Type} (x : Banked α) (b : Bank) (v : α) : (x.set b v).get b = v := by
  cases b <;> rfl

theorem Banked.get_set_other {α : Type} (x : Banked α) {b c : Bank} (v : α) (h : c ≠ b) :
    (x.set b v).get c = x.get c := by
  cases b <;> cases c <;> first | rfl | exact absurd rfl h

theorem Banked.ext_get {α : Type} {x y : Banked α} (h : ∀ b, x.get b = y.get b) : x = y := by
  have ha := h .bankA
  have hb := h .bankB
  cases x; cases y
  simp_all [Banked.get]

end Sys2Proof

namespace Sys2Proof.Machine

theorem bitOf_lt (p : Pin) : bitOf p < 8 := Nat.mod_lt _ (by decide)

@[simp] theorem bankOf_pinOf (b : Bank) (k : Fin 8) : bankOf (pinOf b k) = b := by
  cases b <;> revert k <;> decide

@[simp] theorem bitOf_pinOf (b : Bank) (k : Fin 8) : bitOf (pinOf b k) = k.val := by
  cases b <;> revert k <;> decide

theorem pinOf_bankOf_bitOf (p : Pin) : pinOf (bankOf p) ⟨bitOf p, bitOf_lt p⟩ = p := by
  revert p; decide

/-- A pin is its bank and its bit. -/
theorem pin_ext {p q : Pin} (hb : bankOf p = bankOf q) (hk : bitOf p = bitOf q) : p = q := by
  revert p q; decide

theorem getLsbD_putBit (v : Byte) {j : Nat} (k : Nat) (bit : Bool) (hj : j < 8) :
    (putBit v k bit).getLsbD j = if j = k then bit else v.getLsbD j := by
  by_cases h : j = k
  · subst h
    cases bit <;> simp [putBit, setBit, clrBit, hj]
  · have hjk : j < k ∨ ¬j - k = 0 := by omega
    cases bit
    · simp only [putBit, setBit, clrBit, h, Bool.false_eq_true, if_false, BitVec.getLsbD_and, BitVec.getLsbD_not, hj,
        decide_true, Bool.true_and, BitVec.getLsbD_shiftLeft]
      rcases hjk with hlt | hne
      · simp [hlt]
      · simp [hne]
    · simp only [putBit, setBit, h, if_true, if_false, BitVec.getLsbD_or, BitVec.getLsbD_shiftLeft, hj, decide_true,
        Bool.true_and]
      rcases hjk with hlt | hne
      · simp [hlt]
      · simp [hne]

theorem byte_ext {v w : Byte} (h : ∀ k, k < 8 → v.getLsbD k = w.getLsbD k) : v = w :=
  BitVec.eq_of_getLsbD_eq (fun i hi => h i hi)

@[simp] theorem pinBit_putPin (x : Banked Byte) (p q : Pin) (bit : Bool) :
    pinBit (putPin x p bit) q = if q = p then bit else pinBit x q := by
  unfold pinBit putPin
  by_cases hb : bankOf q = bankOf p
  · rw [hb, Banked.get_set_same, getLsbD_putBit _ _ _ (bitOf_lt q)]
    by_cases hq : q = p
    · simp [hq]
    · have : bitOf q ≠ bitOf p := fun hk => hq (pin_ext hb hk)
      simp [hq, this]
  · have hq : q ≠ p := fun h => hb (by rw [h])
    rw [Banked.get_set_other _ _ hb, if_neg hq]

@[simp] theorem pinBit_set (x : Banked Byte) (b : Bank) (v : Byte) (p : Pin) :
    pinBit (x.set b v) p = if bankOf p = b then v.getLsbD (bitOf p) else pinBit x p := by
  unfold pinBit
  by_cases hb : bankOf p = b
  · subst hb; simp
  · rw [Banked.get_set_other _ _ hb, if_neg hb]

theorem pinBit_pinOf (x : Banked Byte) (b : Bank) (k : Fin 8) : pinBit x (pinOf b k) = (x.get b).getLsbD k := by
  simp [pinBit]

/-- A bank-paired register is its sixteen pins' bits. -/
theorem banked_ext {x y : Banked Byte} (h : ∀ p, pinBit x p = pinBit y p) : x = y := by
  refine Banked.ext_get fun b => byte_ext fun k hk => ?_
  have := h (pinOf b ⟨k, hk⟩)
  rwa [pinBit_pinOf, pinBit_pinOf] at this

end Sys2Proof.Machine
end

