-- ==== Sys2Proof/Laws/State.lean ====
section
/-! SUPPORT. One lemma per field per update of the state, true by unfolding once. -/

namespace Sys2Proof.Machine

variable (s : State)

@[simp] theorem State.setIodir_iodir (b : Bank) (v : Byte) : (s.setIodir b v).iodir = s.iodir.set b v := rfl
@[simp] theorem State.setIodir_gppu (b : Bank) (v : Byte) : (s.setIodir b v).gppu = s.gppu := rfl
@[simp] theorem State.setIodir_olat (b : Bank) (v : Byte) : (s.setIodir b v).olat = s.olat := rfl
@[simp] theorem State.setIodir_gpinten (b : Bank) (v : Byte) : (s.setIodir b v).gpinten = s.gpinten := rfl
@[simp] theorem State.setIodir_intcon (b : Bank) (v : Byte) : (s.setIodir b v).intcon = s.intcon := rfl
@[simp] theorem State.setIodir_defval (b : Bank) (v : Byte) : (s.setIodir b v).defval = s.defval := rfl
@[simp] theorem State.setIodir_intf (b : Bank) (v : Byte) : (s.setIodir b v).intf = s.intf := rfl
@[simp] theorem State.setIodir_cap (b : Bank) (v : Byte) : (s.setIodir b v).cap = s.cap := rfl
@[simp] theorem State.setIodir_iocon (b : Bank) (v : Byte) : (s.setIodir b v).iocon = s.iocon := rfl
@[simp] theorem State.setIodir_lvl (b : Bank) (v : Byte) : (s.setIodir b v).lvl = s.lvl := rfl
@[simp] theorem State.setIodir_ext (b : Bank) (v : Byte) : (s.setIodir b v).ext = s.ext := rfl
@[simp] theorem State.setIodir_refused (b : Bank) (v : Byte) : (s.setIodir b v).refused = s.refused := rfl
@[simp] theorem State.setIodir_handle (b : Bank) (v : Byte) : (s.setIodir b v).handle = s.handle := rfl
@[simp] theorem State.setIodir_threads (b : Bank) (v : Byte) : (s.setIodir b v).threads = s.threads := rfl
@[simp] theorem State.setIodir_params (b : Bank) (v : Byte) : (s.setIodir b v).params = s.params := rfl
@[simp] theorem State.setIodir_agenda (b : Bank) (v : Byte) : (s.setIodir b v).agenda = s.agenda := rfl
@[simp] theorem State.setIodir_fate (b : Bank) (v : Byte) : (s.setIodir b v).fate = s.fate := rfl
@[simp] theorem State.setIodir_reply (b : Bank) (v : Byte) : (s.setIodir b v).reply = s.reply := rfl
@[simp] theorem State.setIodir_draws (b : Bank) (v : Byte) : (s.setIodir b v).draws = s.draws := rfl

@[simp] theorem State.setGppu_iodir (b : Bank) (v : Byte) : (s.setGppu b v).iodir = s.iodir := rfl
@[simp] theorem State.setGppu_gppu (b : Bank) (v : Byte) : (s.setGppu b v).gppu = s.gppu.set b v := rfl
@[simp] theorem State.setGppu_olat (b : Bank) (v : Byte) : (s.setGppu b v).olat = s.olat := rfl
@[simp] theorem State.setGppu_gpinten (b : Bank) (v : Byte) : (s.setGppu b v).gpinten = s.gpinten := rfl
@[simp] theorem State.setGppu_intcon (b : Bank) (v : Byte) : (s.setGppu b v).intcon = s.intcon := rfl
@[simp] theorem State.setGppu_defval (b : Bank) (v : Byte) : (s.setGppu b v).defval = s.defval := rfl
@[simp] theorem State.setGppu_intf (b : Bank) (v : Byte) : (s.setGppu b v).intf = s.intf := rfl
@[simp] theorem State.setGppu_cap (b : Bank) (v : Byte) : (s.setGppu b v).cap = s.cap := rfl
@[simp] theorem State.setGppu_iocon (b : Bank) (v : Byte) : (s.setGppu b v).iocon = s.iocon := rfl
@[simp] theorem State.setGppu_lvl (b : Bank) (v : Byte) : (s.setGppu b v).lvl = s.lvl := rfl
@[simp] theorem State.setGppu_ext (b : Bank) (v : Byte) : (s.setGppu b v).ext = s.ext := rfl
@[simp] theorem State.setGppu_refused (b : Bank) (v : Byte) : (s.setGppu b v).refused = s.refused := rfl
@[simp] theorem State.setGppu_handle (b : Bank) (v : Byte) : (s.setGppu b v).handle = s.handle := rfl
@[simp] theorem State.setGppu_threads (b : Bank) (v : Byte) : (s.setGppu b v).threads = s.threads := rfl
@[simp] theorem State.setGppu_params (b : Bank) (v : Byte) : (s.setGppu b v).params = s.params := rfl
@[simp] theorem State.setGppu_agenda (b : Bank) (v : Byte) : (s.setGppu b v).agenda = s.agenda := rfl
@[simp] theorem State.setGppu_fate (b : Bank) (v : Byte) : (s.setGppu b v).fate = s.fate := rfl
@[simp] theorem State.setGppu_reply (b : Bank) (v : Byte) : (s.setGppu b v).reply = s.reply := rfl
@[simp] theorem State.setGppu_draws (b : Bank) (v : Byte) : (s.setGppu b v).draws = s.draws := rfl

@[simp] theorem State.setOlat_iodir (b : Bank) (v : Byte) : (s.setOlat b v).iodir = s.iodir := rfl
@[simp] theorem State.setOlat_gppu (b : Bank) (v : Byte) : (s.setOlat b v).gppu = s.gppu := rfl
@[simp] theorem State.setOlat_olat (b : Bank) (v : Byte) : (s.setOlat b v).olat = s.olat.set b v := rfl
@[simp] theorem State.setOlat_gpinten (b : Bank) (v : Byte) : (s.setOlat b v).gpinten = s.gpinten := rfl
@[simp] theorem State.setOlat_intcon (b : Bank) (v : Byte) : (s.setOlat b v).intcon = s.intcon := rfl
@[simp] theorem State.setOlat_defval (b : Bank) (v : Byte) : (s.setOlat b v).defval = s.defval := rfl
@[simp] theorem State.setOlat_intf (b : Bank) (v : Byte) : (s.setOlat b v).intf = s.intf := rfl
@[simp] theorem State.setOlat_cap (b : Bank) (v : Byte) : (s.setOlat b v).cap = s.cap := rfl
@[simp] theorem State.setOlat_iocon (b : Bank) (v : Byte) : (s.setOlat b v).iocon = s.iocon := rfl
@[simp] theorem State.setOlat_lvl (b : Bank) (v : Byte) : (s.setOlat b v).lvl = s.lvl := rfl
@[simp] theorem State.setOlat_ext (b : Bank) (v : Byte) : (s.setOlat b v).ext = s.ext := rfl
@[simp] theorem State.setOlat_refused (b : Bank) (v : Byte) : (s.setOlat b v).refused = s.refused := rfl
@[simp] theorem State.setOlat_handle (b : Bank) (v : Byte) : (s.setOlat b v).handle = s.handle := rfl
@[simp] theorem State.setOlat_threads (b : Bank) (v : Byte) : (s.setOlat b v).threads = s.threads := rfl
@[simp] theorem State.setOlat_params (b : Bank) (v : Byte) : (s.setOlat b v).params = s.params := rfl
@[simp] theorem State.setOlat_agenda (b : Bank) (v : Byte) : (s.setOlat b v).agenda = s.agenda := rfl
@[simp] theorem State.setOlat_fate (b : Bank) (v : Byte) : (s.setOlat b v).fate = s.fate := rfl
@[simp] theorem State.setOlat_reply (b : Bank) (v : Byte) : (s.setOlat b v).reply = s.reply := rfl
@[simp] theorem State.setOlat_draws (b : Bank) (v : Byte) : (s.setOlat b v).draws = s.draws := rfl

@[simp] theorem State.setGpinten_iodir (b : Bank) (v : Byte) : (s.setGpinten b v).iodir = s.iodir := rfl
@[simp] theorem State.setGpinten_gppu (b : Bank) (v : Byte) : (s.setGpinten b v).gppu = s.gppu := rfl
@[simp] theorem State.setGpinten_olat (b : Bank) (v : Byte) : (s.setGpinten b v).olat = s.olat := rfl
@[simp] theorem State.setGpinten_gpinten (b : Bank) (v : Byte) : (s.setGpinten b v).gpinten = s.gpinten.set b v := rfl
@[simp] theorem State.setGpinten_intcon (b : Bank) (v : Byte) : (s.setGpinten b v).intcon = s.intcon := rfl
@[simp] theorem State.setGpinten_defval (b : Bank) (v : Byte) : (s.setGpinten b v).defval = s.defval := rfl
@[simp] theorem State.setGpinten_intf (b : Bank) (v : Byte) : (s.setGpinten b v).intf = s.intf := rfl
@[simp] theorem State.setGpinten_cap (b : Bank) (v : Byte) : (s.setGpinten b v).cap = s.cap := rfl
@[simp] theorem State.setGpinten_iocon (b : Bank) (v : Byte) : (s.setGpinten b v).iocon = s.iocon := rfl
@[simp] theorem State.setGpinten_lvl (b : Bank) (v : Byte) : (s.setGpinten b v).lvl = s.lvl := rfl
@[simp] theorem State.setGpinten_ext (b : Bank) (v : Byte) : (s.setGpinten b v).ext = s.ext := rfl
@[simp] theorem State.setGpinten_refused (b : Bank) (v : Byte) : (s.setGpinten b v).refused = s.refused := rfl
@[simp] theorem State.setGpinten_handle (b : Bank) (v : Byte) : (s.setGpinten b v).handle = s.handle := rfl
@[simp] theorem State.setGpinten_threads (b : Bank) (v : Byte) : (s.setGpinten b v).threads = s.threads := rfl
@[simp] theorem State.setGpinten_params (b : Bank) (v : Byte) : (s.setGpinten b v).params = s.params := rfl
@[simp] theorem State.setGpinten_agenda (b : Bank) (v : Byte) : (s.setGpinten b v).agenda = s.agenda := rfl
@[simp] theorem State.setGpinten_fate (b : Bank) (v : Byte) : (s.setGpinten b v).fate = s.fate := rfl
@[simp] theorem State.setGpinten_reply (b : Bank) (v : Byte) : (s.setGpinten b v).reply = s.reply := rfl
@[simp] theorem State.setGpinten_draws (b : Bank) (v : Byte) : (s.setGpinten b v).draws = s.draws := rfl

@[simp] theorem State.setIntcon_iodir (b : Bank) (v : Byte) : (s.setIntcon b v).iodir = s.iodir := rfl
@[simp] theorem State.setIntcon_gppu (b : Bank) (v : Byte) : (s.setIntcon b v).gppu = s.gppu := rfl
@[simp] theorem State.setIntcon_olat (b : Bank) (v : Byte) : (s.setIntcon b v).olat = s.olat := rfl
@[simp] theorem State.setIntcon_gpinten (b : Bank) (v : Byte) : (s.setIntcon b v).gpinten = s.gpinten := rfl
@[simp] theorem State.setIntcon_intcon (b : Bank) (v : Byte) : (s.setIntcon b v).intcon = s.intcon.set b v := rfl
@[simp] theorem State.setIntcon_defval (b : Bank) (v : Byte) : (s.setIntcon b v).defval = s.defval := rfl
@[simp] theorem State.setIntcon_intf (b : Bank) (v : Byte) : (s.setIntcon b v).intf = s.intf := rfl
@[simp] theorem State.setIntcon_cap (b : Bank) (v : Byte) : (s.setIntcon b v).cap = s.cap := rfl
@[simp] theorem State.setIntcon_iocon (b : Bank) (v : Byte) : (s.setIntcon b v).iocon = s.iocon := rfl
@[simp] theorem State.setIntcon_lvl (b : Bank) (v : Byte) : (s.setIntcon b v).lvl = s.lvl := rfl
@[simp] theorem State.setIntcon_ext (b : Bank) (v : Byte) : (s.setIntcon b v).ext = s.ext := rfl
@[simp] theorem State.setIntcon_refused (b : Bank) (v : Byte) : (s.setIntcon b v).refused = s.refused := rfl
@[simp] theorem State.setIntcon_handle (b : Bank) (v : Byte) : (s.setIntcon b v).handle = s.handle := rfl
@[simp] theorem State.setIntcon_threads (b : Bank) (v : Byte) : (s.setIntcon b v).threads = s.threads := rfl
@[simp] theorem State.setIntcon_params (b : Bank) (v : Byte) : (s.setIntcon b v).params = s.params := rfl
@[simp] theorem State.setIntcon_agenda (b : Bank) (v : Byte) : (s.setIntcon b v).agenda = s.agenda := rfl
@[simp] theorem State.setIntcon_fate (b : Bank) (v : Byte) : (s.setIntcon b v).fate = s.fate := rfl
@[simp] theorem State.setIntcon_reply (b : Bank) (v : Byte) : (s.setIntcon b v).reply = s.reply := rfl
@[simp] theorem State.setIntcon_draws (b : Bank) (v : Byte) : (s.setIntcon b v).draws = s.draws := rfl

@[simp] theorem State.setDefval_iodir (b : Bank) (v : Byte) : (s.setDefval b v).iodir = s.iodir := rfl
@[simp] theorem State.setDefval_gppu (b : Bank) (v : Byte) : (s.setDefval b v).gppu = s.gppu := rfl
@[simp] theorem State.setDefval_olat (b : Bank) (v : Byte) : (s.setDefval b v).olat = s.olat := rfl
@[simp] theorem State.setDefval_gpinten (b : Bank) (v : Byte) : (s.setDefval b v).gpinten = s.gpinten := rfl
@[simp] theorem State.setDefval_intcon (b : Bank) (v : Byte) : (s.setDefval b v).intcon = s.intcon := rfl
@[simp] theorem State.setDefval_defval (b : Bank) (v : Byte) : (s.setDefval b v).defval = s.defval.set b v := rfl
@[simp] theorem State.setDefval_intf (b : Bank) (v : Byte) : (s.setDefval b v).intf = s.intf := rfl
@[simp] theorem State.setDefval_cap (b : Bank) (v : Byte) : (s.setDefval b v).cap = s.cap := rfl
@[simp] theorem State.setDefval_iocon (b : Bank) (v : Byte) : (s.setDefval b v).iocon = s.iocon := rfl
@[simp] theorem State.setDefval_lvl (b : Bank) (v : Byte) : (s.setDefval b v).lvl = s.lvl := rfl
@[simp] theorem State.setDefval_ext (b : Bank) (v : Byte) : (s.setDefval b v).ext = s.ext := rfl
@[simp] theorem State.setDefval_refused (b : Bank) (v : Byte) : (s.setDefval b v).refused = s.refused := rfl
@[simp] theorem State.setDefval_handle (b : Bank) (v : Byte) : (s.setDefval b v).handle = s.handle := rfl
@[simp] theorem State.setDefval_threads (b : Bank) (v : Byte) : (s.setDefval b v).threads = s.threads := rfl
@[simp] theorem State.setDefval_params (b : Bank) (v : Byte) : (s.setDefval b v).params = s.params := rfl
@[simp] theorem State.setDefval_agenda (b : Bank) (v : Byte) : (s.setDefval b v).agenda = s.agenda := rfl
@[simp] theorem State.setDefval_fate (b : Bank) (v : Byte) : (s.setDefval b v).fate = s.fate := rfl
@[simp] theorem State.setDefval_reply (b : Bank) (v : Byte) : (s.setDefval b v).reply = s.reply := rfl
@[simp] theorem State.setDefval_draws (b : Bank) (v : Byte) : (s.setDefval b v).draws = s.draws := rfl

@[simp] theorem State.setIntf_iodir (b : Bank) (v : Byte) : (s.setIntf b v).iodir = s.iodir := rfl
@[simp] theorem State.setIntf_gppu (b : Bank) (v : Byte) : (s.setIntf b v).gppu = s.gppu := rfl
@[simp] theorem State.setIntf_olat (b : Bank) (v : Byte) : (s.setIntf b v).olat = s.olat := rfl
@[simp] theorem State.setIntf_gpinten (b : Bank) (v : Byte) : (s.setIntf b v).gpinten = s.gpinten := rfl
@[simp] theorem State.setIntf_intcon (b : Bank) (v : Byte) : (s.setIntf b v).intcon = s.intcon := rfl
@[simp] theorem State.setIntf_defval (b : Bank) (v : Byte) : (s.setIntf b v).defval = s.defval := rfl
@[simp] theorem State.setIntf_intf (b : Bank) (v : Byte) : (s.setIntf b v).intf = s.intf.set b v := rfl
@[simp] theorem State.setIntf_cap (b : Bank) (v : Byte) : (s.setIntf b v).cap = s.cap := rfl
@[simp] theorem State.setIntf_iocon (b : Bank) (v : Byte) : (s.setIntf b v).iocon = s.iocon := rfl
@[simp] theorem State.setIntf_lvl (b : Bank) (v : Byte) : (s.setIntf b v).lvl = s.lvl := rfl
@[simp] theorem State.setIntf_ext (b : Bank) (v : Byte) : (s.setIntf b v).ext = s.ext := rfl
@[simp] theorem State.setIntf_refused (b : Bank) (v : Byte) : (s.setIntf b v).refused = s.refused := rfl
@[simp] theorem State.setIntf_handle (b : Bank) (v : Byte) : (s.setIntf b v).handle = s.handle := rfl
@[simp] theorem State.setIntf_threads (b : Bank) (v : Byte) : (s.setIntf b v).threads = s.threads := rfl
@[simp] theorem State.setIntf_params (b : Bank) (v : Byte) : (s.setIntf b v).params = s.params := rfl
@[simp] theorem State.setIntf_agenda (b : Bank) (v : Byte) : (s.setIntf b v).agenda = s.agenda := rfl
@[simp] theorem State.setIntf_fate (b : Bank) (v : Byte) : (s.setIntf b v).fate = s.fate := rfl
@[simp] theorem State.setIntf_reply (b : Bank) (v : Byte) : (s.setIntf b v).reply = s.reply := rfl
@[simp] theorem State.setIntf_draws (b : Bank) (v : Byte) : (s.setIntf b v).draws = s.draws := rfl

@[simp] theorem State.setIocon_iodir (v : Byte) : (s.setIocon v).iodir = s.iodir := rfl
@[simp] theorem State.setIocon_gppu (v : Byte) : (s.setIocon v).gppu = s.gppu := rfl
@[simp] theorem State.setIocon_olat (v : Byte) : (s.setIocon v).olat = s.olat := rfl
@[simp] theorem State.setIocon_gpinten (v : Byte) : (s.setIocon v).gpinten = s.gpinten := rfl
@[simp] theorem State.setIocon_intcon (v : Byte) : (s.setIocon v).intcon = s.intcon := rfl
@[simp] theorem State.setIocon_defval (v : Byte) : (s.setIocon v).defval = s.defval := rfl
@[simp] theorem State.setIocon_intf (v : Byte) : (s.setIocon v).intf = s.intf := rfl
@[simp] theorem State.setIocon_cap (v : Byte) : (s.setIocon v).cap = s.cap := rfl
@[simp] theorem State.setIocon_iocon (v : Byte) : (s.setIocon v).iocon = v := rfl
@[simp] theorem State.setIocon_lvl (v : Byte) : (s.setIocon v).lvl = s.lvl := rfl
@[simp] theorem State.setIocon_ext (v : Byte) : (s.setIocon v).ext = s.ext := rfl
@[simp] theorem State.setIocon_refused (v : Byte) : (s.setIocon v).refused = s.refused := rfl
@[simp] theorem State.setIocon_handle (v : Byte) : (s.setIocon v).handle = s.handle := rfl
@[simp] theorem State.setIocon_threads (v : Byte) : (s.setIocon v).threads = s.threads := rfl
@[simp] theorem State.setIocon_params (v : Byte) : (s.setIocon v).params = s.params := rfl
@[simp] theorem State.setIocon_agenda (v : Byte) : (s.setIocon v).agenda = s.agenda := rfl
@[simp] theorem State.setIocon_fate (v : Byte) : (s.setIocon v).fate = s.fate := rfl
@[simp] theorem State.setIocon_reply (v : Byte) : (s.setIocon v).reply = s.reply := rfl
@[simp] theorem State.setIocon_draws (v : Byte) : (s.setIocon v).draws = s.draws := rfl

@[simp] theorem State.setLevel_iodir (p : Pin) (v : Bool) : (s.setLevel p v).iodir = s.iodir := rfl
@[simp] theorem State.setLevel_gppu (p : Pin) (v : Bool) : (s.setLevel p v).gppu = s.gppu := rfl
@[simp] theorem State.setLevel_olat (p : Pin) (v : Bool) : (s.setLevel p v).olat = s.olat := rfl
@[simp] theorem State.setLevel_gpinten (p : Pin) (v : Bool) : (s.setLevel p v).gpinten = s.gpinten := rfl
@[simp] theorem State.setLevel_intcon (p : Pin) (v : Bool) : (s.setLevel p v).intcon = s.intcon := rfl
@[simp] theorem State.setLevel_defval (p : Pin) (v : Bool) : (s.setLevel p v).defval = s.defval := rfl
@[simp] theorem State.setLevel_intf (p : Pin) (v : Bool) : (s.setLevel p v).intf = s.intf := rfl
@[simp] theorem State.setLevel_cap (p : Pin) (v : Bool) : (s.setLevel p v).cap = s.cap := rfl
@[simp] theorem State.setLevel_iocon (p : Pin) (v : Bool) : (s.setLevel p v).iocon = s.iocon := rfl
@[simp] theorem State.setLevel_lvl (p : Pin) (v : Bool) : (s.setLevel p v).lvl = putPin s.lvl p v := rfl
@[simp] theorem State.setLevel_ext (p : Pin) (v : Bool) : (s.setLevel p v).ext = s.ext := rfl
@[simp] theorem State.setLevel_refused (p : Pin) (v : Bool) : (s.setLevel p v).refused = s.refused := rfl
@[simp] theorem State.setLevel_handle (p : Pin) (v : Bool) : (s.setLevel p v).handle = s.handle := rfl
@[simp] theorem State.setLevel_threads (p : Pin) (v : Bool) : (s.setLevel p v).threads = s.threads := rfl
@[simp] theorem State.setLevel_params (p : Pin) (v : Bool) : (s.setLevel p v).params = s.params := rfl
@[simp] theorem State.setLevel_agenda (p : Pin) (v : Bool) : (s.setLevel p v).agenda = s.agenda := rfl
@[simp] theorem State.setLevel_fate (p : Pin) (v : Bool) : (s.setLevel p v).fate = s.fate := rfl
@[simp] theorem State.setLevel_reply (p : Pin) (v : Bool) : (s.setLevel p v).reply = s.reply := rfl
@[simp] theorem State.setLevel_draws (p : Pin) (v : Bool) : (s.setLevel p v).draws = s.draws := rfl

@[simp] theorem State.setExt_iodir (p : Pin) (v : Drive) : (s.setExt p v).iodir = s.iodir := rfl
@[simp] theorem State.setExt_gppu (p : Pin) (v : Drive) : (s.setExt p v).gppu = s.gppu := rfl
@[simp] theorem State.setExt_olat (p : Pin) (v : Drive) : (s.setExt p v).olat = s.olat := rfl
@[simp] theorem State.setExt_gpinten (p : Pin) (v : Drive) : (s.setExt p v).gpinten = s.gpinten := rfl
@[simp] theorem State.setExt_intcon (p : Pin) (v : Drive) : (s.setExt p v).intcon = s.intcon := rfl
@[simp] theorem State.setExt_defval (p : Pin) (v : Drive) : (s.setExt p v).defval = s.defval := rfl
@[simp] theorem State.setExt_intf (p : Pin) (v : Drive) : (s.setExt p v).intf = s.intf := rfl
@[simp] theorem State.setExt_cap (p : Pin) (v : Drive) : (s.setExt p v).cap = s.cap := rfl
@[simp] theorem State.setExt_iocon (p : Pin) (v : Drive) : (s.setExt p v).iocon = s.iocon := rfl
@[simp] theorem State.setExt_lvl (p : Pin) (v : Drive) : (s.setExt p v).lvl = s.lvl := rfl
@[simp] theorem State.setExt_ext (p : Pin) (v : Drive) : (s.setExt p v).ext = s.ext.set p v := rfl
@[simp] theorem State.setExt_refused (p : Pin) (v : Drive) : (s.setExt p v).refused = s.refused := rfl
@[simp] theorem State.setExt_handle (p : Pin) (v : Drive) : (s.setExt p v).handle = s.handle := rfl
@[simp] theorem State.setExt_threads (p : Pin) (v : Drive) : (s.setExt p v).threads = s.threads := rfl
@[simp] theorem State.setExt_params (p : Pin) (v : Drive) : (s.setExt p v).params = s.params := rfl
@[simp] theorem State.setExt_agenda (p : Pin) (v : Drive) : (s.setExt p v).agenda = s.agenda := rfl
@[simp] theorem State.setExt_fate (p : Pin) (v : Drive) : (s.setExt p v).fate = s.fate := rfl
@[simp] theorem State.setExt_reply (p : Pin) (v : Drive) : (s.setExt p v).reply = s.reply := rfl
@[simp] theorem State.setExt_draws (p : Pin) (v : Drive) : (s.setExt p v).draws = s.draws := rfl

@[simp] theorem State.latchFlag_iodir (c : Bool) (p : Pin) (v : Bool) : (s.latchFlag c p v).iodir = s.iodir := rfl
@[simp] theorem State.latchFlag_gppu (c : Bool) (p : Pin) (v : Bool) : (s.latchFlag c p v).gppu = s.gppu := rfl
@[simp] theorem State.latchFlag_olat (c : Bool) (p : Pin) (v : Bool) : (s.latchFlag c p v).olat = s.olat := rfl
@[simp] theorem State.latchFlag_gpinten (c : Bool) (p : Pin) (v : Bool) : (s.latchFlag c p v).gpinten = s.gpinten := rfl
@[simp] theorem State.latchFlag_intcon (c : Bool) (p : Pin) (v : Bool) : (s.latchFlag c p v).intcon = s.intcon := rfl
@[simp] theorem State.latchFlag_defval (c : Bool) (p : Pin) (v : Bool) : (s.latchFlag c p v).defval = s.defval := rfl
@[simp] theorem State.latchFlag_intf (c : Bool) (p : Pin) (v : Bool) : (s.latchFlag c p v).intf = if c && !pinBit s.intf p then putPin s.intf p true else s.intf := rfl
@[simp] theorem State.latchFlag_cap (c : Bool) (p : Pin) (v : Bool) : (s.latchFlag c p v).cap = if c && !pinBit s.intf p then putPin s.cap p v else s.cap := rfl
@[simp] theorem State.latchFlag_iocon (c : Bool) (p : Pin) (v : Bool) : (s.latchFlag c p v).iocon = s.iocon := rfl
@[simp] theorem State.latchFlag_lvl (c : Bool) (p : Pin) (v : Bool) : (s.latchFlag c p v).lvl = s.lvl := rfl
@[simp] theorem State.latchFlag_ext (c : Bool) (p : Pin) (v : Bool) : (s.latchFlag c p v).ext = s.ext := rfl
@[simp] theorem State.latchFlag_refused (c : Bool) (p : Pin) (v : Bool) : (s.latchFlag c p v).refused = s.refused := rfl
@[simp] theorem State.latchFlag_handle (c : Bool) (p : Pin) (v : Bool) : (s.latchFlag c p v).handle = s.handle := rfl
@[simp] theorem State.latchFlag_threads (c : Bool) (p : Pin) (v : Bool) : (s.latchFlag c p v).threads = s.threads := rfl
@[simp] theorem State.latchFlag_params (c : Bool) (p : Pin) (v : Bool) : (s.latchFlag c p v).params = s.params := rfl
@[simp] theorem State.latchFlag_agenda (c : Bool) (p : Pin) (v : Bool) : (s.latchFlag c p v).agenda = s.agenda := rfl
@[simp] theorem State.latchFlag_fate (c : Bool) (p : Pin) (v : Bool) : (s.latchFlag c p v).fate = s.fate := rfl
@[simp] theorem State.latchFlag_reply (c : Bool) (p : Pin) (v : Bool) : (s.latchFlag c p v).reply = s.reply := rfl
@[simp] theorem State.latchFlag_draws (c : Bool) (p : Pin) (v : Bool) : (s.latchFlag c p v).draws = s.draws := rfl

@[simp] theorem State.setReply_iodir (r : Reply) : (s.setReply r).iodir = s.iodir := rfl
@[simp] theorem State.setReply_gppu (r : Reply) : (s.setReply r).gppu = s.gppu := rfl
@[simp] theorem State.setReply_olat (r : Reply) : (s.setReply r).olat = s.olat := rfl
@[simp] theorem State.setReply_gpinten (r : Reply) : (s.setReply r).gpinten = s.gpinten := rfl
@[simp] theorem State.setReply_intcon (r : Reply) : (s.setReply r).intcon = s.intcon := rfl
@[simp] theorem State.setReply_defval (r : Reply) : (s.setReply r).defval = s.defval := rfl
@[simp] theorem State.setReply_intf (r : Reply) : (s.setReply r).intf = s.intf := rfl
@[simp] theorem State.setReply_cap (r : Reply) : (s.setReply r).cap = s.cap := rfl
@[simp] theorem State.setReply_iocon (r : Reply) : (s.setReply r).iocon = s.iocon := rfl
@[simp] theorem State.setReply_lvl (r : Reply) : (s.setReply r).lvl = s.lvl := rfl
@[simp] theorem State.setReply_ext (r : Reply) : (s.setReply r).ext = s.ext := rfl
@[simp] theorem State.setReply_refused (r : Reply) : (s.setReply r).refused = s.refused := rfl
@[simp] theorem State.setReply_handle (r : Reply) : (s.setReply r).handle = s.handle := rfl
@[simp] theorem State.setReply_threads (r : Reply) : (s.setReply r).threads = s.threads := rfl
@[simp] theorem State.setReply_params (r : Reply) : (s.setReply r).params = s.params := rfl
@[simp] theorem State.setReply_agenda (r : Reply) : (s.setReply r).agenda = s.agenda := rfl
@[simp] theorem State.setReply_fate (r : Reply) : (s.setReply r).fate = s.fate := rfl
@[simp] theorem State.setReply_reply (r : Reply) : (s.setReply r).reply = r := rfl
@[simp] theorem State.setReply_draws (r : Reply) : (s.setReply r).draws = s.draws := rfl

@[simp] theorem State.setFate_iodir (f : Fate) : (s.setFate f).iodir = s.iodir := rfl
@[simp] theorem State.setFate_gppu (f : Fate) : (s.setFate f).gppu = s.gppu := rfl
@[simp] theorem State.setFate_olat (f : Fate) : (s.setFate f).olat = s.olat := rfl
@[simp] theorem State.setFate_gpinten (f : Fate) : (s.setFate f).gpinten = s.gpinten := rfl
@[simp] theorem State.setFate_intcon (f : Fate) : (s.setFate f).intcon = s.intcon := rfl
@[simp] theorem State.setFate_defval (f : Fate) : (s.setFate f).defval = s.defval := rfl
@[simp] theorem State.setFate_intf (f : Fate) : (s.setFate f).intf = s.intf := rfl
@[simp] theorem State.setFate_cap (f : Fate) : (s.setFate f).cap = s.cap := rfl
@[simp] theorem State.setFate_iocon (f : Fate) : (s.setFate f).iocon = s.iocon := rfl
@[simp] theorem State.setFate_lvl (f : Fate) : (s.setFate f).lvl = s.lvl := rfl
@[simp] theorem State.setFate_ext (f : Fate) : (s.setFate f).ext = s.ext := rfl
@[simp] theorem State.setFate_refused (f : Fate) : (s.setFate f).refused = s.refused := rfl
@[simp] theorem State.setFate_handle (f : Fate) : (s.setFate f).handle = s.handle := rfl
@[simp] theorem State.setFate_threads (f : Fate) : (s.setFate f).threads = s.threads := rfl
@[simp] theorem State.setFate_params (f : Fate) : (s.setFate f).params = s.params := rfl
@[simp] theorem State.setFate_agenda (f : Fate) : (s.setFate f).agenda = s.agenda := rfl
@[simp] theorem State.setFate_fate (f : Fate) : (s.setFate f).fate = f := rfl
@[simp] theorem State.setFate_reply (f : Fate) : (s.setFate f).reply = s.reply := rfl
@[simp] theorem State.setFate_draws (f : Fate) : (s.setFate f).draws = s.draws := rfl

@[simp] theorem State.setHandle_iodir (h : Handle) : (s.setHandle h).iodir = s.iodir := rfl
@[simp] theorem State.setHandle_gppu (h : Handle) : (s.setHandle h).gppu = s.gppu := rfl
@[simp] theorem State.setHandle_olat (h : Handle) : (s.setHandle h).olat = s.olat := rfl
@[simp] theorem State.setHandle_gpinten (h : Handle) : (s.setHandle h).gpinten = s.gpinten := rfl
@[simp] theorem State.setHandle_intcon (h : Handle) : (s.setHandle h).intcon = s.intcon := rfl
@[simp] theorem State.setHandle_defval (h : Handle) : (s.setHandle h).defval = s.defval := rfl
@[simp] theorem State.setHandle_intf (h : Handle) : (s.setHandle h).intf = s.intf := rfl
@[simp] theorem State.setHandle_cap (h : Handle) : (s.setHandle h).cap = s.cap := rfl
@[simp] theorem State.setHandle_iocon (h : Handle) : (s.setHandle h).iocon = s.iocon := rfl
@[simp] theorem State.setHandle_lvl (h : Handle) : (s.setHandle h).lvl = s.lvl := rfl
@[simp] theorem State.setHandle_ext (h : Handle) : (s.setHandle h).ext = s.ext := rfl
@[simp] theorem State.setHandle_refused (h : Handle) : (s.setHandle h).refused = s.refused := rfl
@[simp] theorem State.setHandle_handle (h : Handle) : (s.setHandle h).handle = h := rfl
@[simp] theorem State.setHandle_threads (h : Handle) : (s.setHandle h).threads = s.threads := rfl
@[simp] theorem State.setHandle_params (h : Handle) : (s.setHandle h).params = s.params := rfl
@[simp] theorem State.setHandle_agenda (h : Handle) : (s.setHandle h).agenda = s.agenda := rfl
@[simp] theorem State.setHandle_fate (h : Handle) : (s.setHandle h).fate = s.fate := rfl
@[simp] theorem State.setHandle_reply (h : Handle) : (s.setHandle h).reply = s.reply := rfl
@[simp] theorem State.setHandle_draws (h : Handle) : (s.setHandle h).draws = s.draws := rfl

@[simp] theorem State.release_iodir : s.release.iodir = s.iodir := rfl
@[simp] theorem State.release_gppu : s.release.gppu = s.gppu := rfl
@[simp] theorem State.release_olat : s.release.olat = s.olat := rfl
@[simp] theorem State.release_gpinten : s.release.gpinten = s.gpinten := rfl
@[simp] theorem State.release_intcon : s.release.intcon = s.intcon := rfl
@[simp] theorem State.release_defval : s.release.defval = s.defval := rfl
@[simp] theorem State.release_intf : s.release.intf = s.intf := rfl
@[simp] theorem State.release_cap : s.release.cap = s.cap := rfl
@[simp] theorem State.release_iocon : s.release.iocon = s.iocon := rfl
@[simp] theorem State.release_lvl : s.release.lvl = s.lvl := rfl
@[simp] theorem State.release_ext : s.release.ext = s.ext := rfl
@[simp] theorem State.release_refused : s.release.refused = s.refused := rfl
@[simp] theorem State.release_handle : s.release.handle = if s.handle = .opened then .closed else s.handle := rfl
@[simp] theorem State.release_threads : s.release.threads = s.threads := rfl
@[simp] theorem State.release_params : s.release.params = s.params := rfl
@[simp] theorem State.release_agenda : s.release.agenda = s.agenda := rfl
@[simp] theorem State.release_fate : s.release.fate = s.fate := rfl
@[simp] theorem State.release_reply : s.release.reply = s.reply := rfl
@[simp] theorem State.release_draws : s.release.draws = s.draws := rfl

@[simp] theorem State.setThread_iodir (t : Nat) (x : Thread) : (s.setThread t x).iodir = s.iodir := rfl
@[simp] theorem State.setThread_gppu (t : Nat) (x : Thread) : (s.setThread t x).gppu = s.gppu := rfl
@[simp] theorem State.setThread_olat (t : Nat) (x : Thread) : (s.setThread t x).olat = s.olat := rfl
@[simp] theorem State.setThread_gpinten (t : Nat) (x : Thread) : (s.setThread t x).gpinten = s.gpinten := rfl
@[simp] theorem State.setThread_intcon (t : Nat) (x : Thread) : (s.setThread t x).intcon = s.intcon := rfl
@[simp] theorem State.setThread_defval (t : Nat) (x : Thread) : (s.setThread t x).defval = s.defval := rfl
@[simp] theorem State.setThread_intf (t : Nat) (x : Thread) : (s.setThread t x).intf = s.intf := rfl
@[simp] theorem State.setThread_cap (t : Nat) (x : Thread) : (s.setThread t x).cap = s.cap := rfl
@[simp] theorem State.setThread_iocon (t : Nat) (x : Thread) : (s.setThread t x).iocon = s.iocon := rfl
@[simp] theorem State.setThread_lvl (t : Nat) (x : Thread) : (s.setThread t x).lvl = s.lvl := rfl
@[simp] theorem State.setThread_ext (t : Nat) (x : Thread) : (s.setThread t x).ext = s.ext := rfl
@[simp] theorem State.setThread_refused (t : Nat) (x : Thread) : (s.setThread t x).refused = s.refused := rfl
@[simp] theorem State.setThread_handle (t : Nat) (x : Thread) : (s.setThread t x).handle = s.handle := rfl
@[simp] theorem State.setThread_threads (t : Nat) (x : Thread) : (s.setThread t x).threads = s.threads.set t x := rfl
@[simp] theorem State.setThread_params (t : Nat) (x : Thread) : (s.setThread t x).params = s.params := rfl
@[simp] theorem State.setThread_agenda (t : Nat) (x : Thread) : (s.setThread t x).agenda = s.agenda := rfl
@[simp] theorem State.setThread_fate (t : Nat) (x : Thread) : (s.setThread t x).fate = s.fate := rfl
@[simp] theorem State.setThread_reply (t : Nat) (x : Thread) : (s.setThread t x).reply = s.reply := rfl
@[simp] theorem State.setThread_draws (t : Nat) (x : Thread) : (s.setThread t x).draws = s.draws := rfl

@[simp] theorem State.drawn_iodir (n : Nat) : (s.drawn n).iodir = s.iodir := rfl
@[simp] theorem State.drawn_gppu (n : Nat) : (s.drawn n).gppu = s.gppu := rfl
@[simp] theorem State.drawn_olat (n : Nat) : (s.drawn n).olat = s.olat := rfl
@[simp] theorem State.drawn_gpinten (n : Nat) : (s.drawn n).gpinten = s.gpinten := rfl
@[simp] theorem State.drawn_intcon (n : Nat) : (s.drawn n).intcon = s.intcon := rfl
@[simp] theorem State.drawn_defval (n : Nat) : (s.drawn n).defval = s.defval := rfl
@[simp] theorem State.drawn_intf (n : Nat) : (s.drawn n).intf = s.intf := rfl
@[simp] theorem State.drawn_cap (n : Nat) : (s.drawn n).cap = s.cap := rfl
@[simp] theorem State.drawn_iocon (n : Nat) : (s.drawn n).iocon = s.iocon := rfl
@[simp] theorem State.drawn_lvl (n : Nat) : (s.drawn n).lvl = s.lvl := rfl
@[simp] theorem State.drawn_ext (n : Nat) : (s.drawn n).ext = s.ext := rfl
@[simp] theorem State.drawn_refused (n : Nat) : (s.drawn n).refused = s.refused := rfl
@[simp] theorem State.drawn_handle (n : Nat) : (s.drawn n).handle = s.handle := rfl
@[simp] theorem State.drawn_threads (n : Nat) : (s.drawn n).threads = s.threads := rfl
@[simp] theorem State.drawn_params (n : Nat) : (s.drawn n).params = s.params := rfl
@[simp] theorem State.drawn_agenda (n : Nat) : (s.drawn n).agenda = s.agenda := rfl
@[simp] theorem State.drawn_fate (n : Nat) : (s.drawn n).fate = s.fate := rfl
@[simp] theorem State.drawn_reply (n : Nat) : (s.drawn n).reply = s.reply := rfl
@[simp] theorem State.drawn_draws (n : Nat) : (s.drawn n).draws = s.draws + n := rfl

@[simp] theorem State.markRefused_iodir : (s.markRefused).iodir = s.iodir := rfl
@[simp] theorem State.markRefused_gppu : (s.markRefused).gppu = s.gppu := rfl
@[simp] theorem State.markRefused_olat : (s.markRefused).olat = s.olat := rfl
@[simp] theorem State.markRefused_gpinten : (s.markRefused).gpinten = s.gpinten := rfl
@[simp] theorem State.markRefused_intcon : (s.markRefused).intcon = s.intcon := rfl
@[simp] theorem State.markRefused_defval : (s.markRefused).defval = s.defval := rfl
@[simp] theorem State.markRefused_intf : (s.markRefused).intf = s.intf := rfl
@[simp] theorem State.markRefused_cap : (s.markRefused).cap = s.cap := rfl
@[simp] theorem State.markRefused_iocon : (s.markRefused).iocon = s.iocon := rfl
@[simp] theorem State.markRefused_lvl : (s.markRefused).lvl = s.lvl := rfl
@[simp] theorem State.markRefused_ext : (s.markRefused).ext = s.ext := rfl
@[simp] theorem State.markRefused_refused : (s.markRefused).refused = true := rfl
@[simp] theorem State.markRefused_handle : (s.markRefused).handle = s.handle := rfl
@[simp] theorem State.markRefused_threads : (s.markRefused).threads = s.threads := rfl
@[simp] theorem State.markRefused_params : (s.markRefused).params = s.params := rfl
@[simp] theorem State.markRefused_agenda : (s.markRefused).agenda = s.agenda := rfl
@[simp] theorem State.markRefused_fate : (s.markRefused).fate = s.fate := rfl
@[simp] theorem State.markRefused_reply : (s.markRefused).reply = s.reply := rfl
@[simp] theorem State.markRefused_draws : (s.markRefused).draws = s.draws := rfl

end Sys2Proof.Machine
end

