-- ==== Sys2Proof/Laws/Levels.lean ====
section
/-! SUPPORT. Everything the resolution of pins and the trigger multiplexer can do, said once: `levelEval`, `resolvePin`,
`resolveChanged` (R96, R97, R101 to R105). -/

namespace Sys2Proof.Machine

/-! ### One flag -/

@[simp] theorem flag_latchFlag (s : State) (c : Bool) (p : Pin) (v : Bool) (q : Pin) :
    flag q (s.latchFlag c p v) = (flag q s || (decide (q = p) && c)) := by
  unfold flag
  simp only [State.latchFlag_intf]
  cases c <;> by_cases hq : q = p <;> cases h : pinBit s.intf p <;> simp_all

@[simp] theorem capture_latchFlag (s : State) (c : Bool) (p : Pin) (v : Bool) (q : Pin) :
    capture q (s.latchFlag c p v) = if q = p ∧ c = true ∧ flag q s = false then v else capture q s := by
  unfold capture flag
  simp only [State.latchFlag_cap]
  cases c <;> by_cases hq : q = p <;> cases h : pinBit s.intf p <;> simp_all

/-- `set_flag` writes flags and captures, nothing else. -/
theorem latchFlag_frame (s : State) (c : Bool) (p : Pin) (v : Bool) :
    s.latchFlag c p v = { s with intf := (s.latchFlag c p v).intf, cap := (s.latchFlag c p v).cap } := rfl

/-! ### `level_eval` -/

/-- `level_eval` writes flags and captures, nothing else. -/
theorem levelEval_frame (s : State) :
    levelEval s = { s with intf := (levelEval s).intf, cap := (levelEval s).cap } := rfl

@[simp] theorem levelEval_iodir (s : State) : (levelEval s).iodir = s.iodir := rfl
@[simp] theorem levelEval_gppu (s : State) : (levelEval s).gppu = s.gppu := rfl
@[simp] theorem levelEval_olat (s : State) : (levelEval s).olat = s.olat := rfl
@[simp] theorem levelEval_gpinten (s : State) : (levelEval s).gpinten = s.gpinten := rfl
@[simp] theorem levelEval_intcon (s : State) : (levelEval s).intcon = s.intcon := rfl
@[simp] theorem levelEval_defval (s : State) : (levelEval s).defval = s.defval := rfl
@[simp] theorem levelEval_iocon (s : State) : (levelEval s).iocon = s.iocon := rfl
@[simp] theorem levelEval_lvl (s : State) : (levelEval s).lvl = s.lvl := rfl
@[simp] theorem levelEval_ext (s : State) : (levelEval s).ext = s.ext := rfl
@[simp] theorem levelEval_refused (s : State) : (levelEval s).refused = s.refused := rfl
@[simp] theorem levelEval_handle (s : State) : (levelEval s).handle = s.handle := rfl
@[simp] theorem levelEval_threads (s : State) : (levelEval s).threads = s.threads := rfl
@[simp] theorem levelEval_params (s : State) : (levelEval s).params = s.params := rfl
@[simp] theorem levelEval_agenda (s : State) : (levelEval s).agenda = s.agenda := rfl
@[simp] theorem levelEval_fate (s : State) : (levelEval s).fate = s.fate := rfl
@[simp] theorem levelEval_reply (s : State) : (levelEval s).reply = s.reply := rfl
@[simp] theorem levelEval_draws (s : State) : (levelEval s).draws = s.draws := rfl

/-- A loop over pins that writes some pins' bits, each from data the loop does not change. -/
theorem pinBit_foldl_putPin (c v : Pin → Bool) (l : List Pin) (x : Banked Byte) (q : Pin) :
    pinBit (l.foldl (fun x p => if c p then putPin x p (v p) else x) x) q =
      if q ∈ l ∧ c q = true then v q else pinBit x q := by
  induction l generalizing x with
  | nil => simp
  | cons p l ih =>
    rw [List.foldl_cons, ih]
    by_cases hq : q = p
    · subst hq
      cases hc : c q <;> simp
    · have hx : pinBit (if c p then putPin x p (v p) else x) q = pinBit x q := by
        cases c p <;> simp [hq]
      simp [hx, hq]

theorem mem_allPins (p : Pin) : p ∈ allPins := by revert p; decide

theorem flag_levelEval (s : State) (p : Pin) : flag p (levelEval s) = (flag p s || mismatched p s) := by
  have h := pinBit_foldl_putPin (fun p => mismatched p s) (fun _ => true) allPins s.intf p
  change pinBit (evalFlags s) p = _
  rw [evalFlags, h]
  cases mismatched p s <;> simp [mem_allPins, flag]

theorem capture_levelEval (s : State) (p : Pin) :
    capture p (levelEval s) = if flag p s = false ∧ mismatched p s = true then level p s else capture p s := by
  have h := pinBit_foldl_putPin (fun p => mismatched p s && !flag p s) (fun p => level p s) allPins s.cap p
  change pinBit (evalCaptures s) p = _
  rw [evalCaptures, h]
  cases mismatched p s <;> cases flag p s <;> simp [mem_allPins, capture]

/-! ### What a flag, a level and a trigger depend on -/

/-- Two states with the same direction, latch, pull-up, enables, comparison and drive, and the same parameters: the
same pins are determined, eligible, and fire. -/
structure SameSetting (s t : State) : Prop where
  iodir : t.iodir = s.iodir
  gppu : t.gppu = s.gppu
  olat : t.olat = s.olat
  gpinten : t.gpinten = s.gpinten
  intcon : t.intcon = s.intcon
  defval : t.defval = s.defval
  ext : t.ext = s.ext
  params : t.params = s.params

theorem SameSetting.determined {s t : State} (h : SameSetting s t) (p : Pin) : determined p t = determined p s := by
  simp [Sys2Proof.Machine.determined, h.iodir, h.gppu, h.olat, h.ext]

theorem SameSetting.eligible {s t : State} (h : SameSetting s t) (p : Pin) : eligible p t = eligible p s := by
  simp [Sys2Proof.Machine.eligible, h.iodir, h.gpinten, h.params]

theorem SameSetting.fires {s t : State} (h : SameSetting s t) (p : Pin) (v : Bool) : fires p v t = fires p v s := by
  simp [Sys2Proof.Machine.fires, h.eligible, h.intcon, h.defval, h.params]

theorem SameSetting.mismatched {s t : State} (h : SameSetting s t) {p : Pin} (hl : level p t = level p s) :
    mismatched p t = mismatched p s := by
  simp [Sys2Proof.Machine.mismatched, h.eligible, h.intcon, h.defval, h.params, hl]

theorem SameSetting.trans {s t u : State} (h : SameSetting s t) (h' : SameSetting t u) : SameSetting s u where
  iodir := h'.iodir.trans h.iodir
  gppu := h'.gppu.trans h.gppu
  olat := h'.olat.trans h.olat
  gpinten := h'.gpinten.trans h.gpinten
  intcon := h'.intcon.trans h.intcon
  defval := h'.defval.trans h.defval
  ext := h'.ext.trans h.ext
  params := h'.params.trans h.params

/-! ### Resolution -/

/-- What re-resolving the pins `S` does (R97): a selected pin takes its determined level, another keeps its own; a flag
rises on the changes that fire, with the new level captured; nothing else but the draw counter changes. -/
structure Resolved (S : Pin → Prop) (s t : State) : Prop where
  frame : t = { s with lvl := t.lvl, intf := t.intf, cap := t.cap, draws := t.draws }
  kept : ∀ q, ¬S q → level q t = level q s
  settled : ∀ q v, S q → determined q s = some v → level q t = v
  flags : ∀ q, flag q t = (flag q s || (level q t != level q s && fires q (level q t) s))
  captures : ∀ q, capture q t =
    if flag q s = false ∧ (level q t != level q s && fires q (level q t) s) = true then level q t else capture q s

theorem Resolved.same {S : Pin → Prop} {s t : State} (h : Resolved S s t) : SameSetting s t := by
  rw [h.frame]
  constructor <;> rfl

theorem Resolved.refl (s : State) : Resolved (fun _ => False) s s where
  frame := rfl
  kept := fun _ _ => rfl
  settled := fun _ _ h => h.elim
  flags := by simp
  captures := by simp

theorem level_settlePin (s : State) (p q : Pin) :
    level q (settlePin s p) = if q = p then resolve p s else level q s := by
  simp [level, settlePin]

theorem resolve_eq {s : State} {p : Pin} {v : Bool} (h : determined p s = some v) : resolve p s = v := by
  simp [resolve, h]

/-- R97: `resolve_pin` re-resolves its pin. -/
theorem resolvePin_resolved (p : Pin) (s : State) : Resolved (fun q => q = p) s (resolvePin p s) := by
  have hl : ∀ q, level q (resolvePin p s) = if q = p then resolve p s else level q s := level_settlePin s p
  have hfire : ∀ q v, fires q v (settlePin s p) = fires q v s := fun _ _ => rfl
  have hflag : ∀ q, flag q (settlePin s p) = flag q s := fun _ => rfl
  have hcap : ∀ q, capture q (settlePin s p) = capture q s := fun _ => rfl
  refine ⟨rfl, ?_, ?_, ?_, ?_⟩
  · intro q hq
    simp [hl, hq]
  · rintro q v rfl hv
    simp [hl, resolve_eq hv]
  · intro q
    by_cases hq : q = p
    · subst hq
      rw [hl]
      simp [resolvePin, onChange, hfire, hflag]
    · rw [hl]
      simp [resolvePin, onChange, hflag, hq]
  · intro q
    by_cases hq : q = p
    · subst hq
      rw [hl]
      simp only [resolvePin, onChange, capture_latchFlag, hfire, hflag, hcap, if_true]
      by_cases hf : flag q s = false <;> simp [hf]
    · rw [hl]
      simp [resolvePin, onChange, hcap, hq]

/-- Re-resolving further pins after some. -/
theorem Resolved.step {S : Pin → Prop} {s t u : State} {p : Pin} (h : Resolved S s t) (hp : ¬S p)
    (h' : Resolved (fun q => q = p) t u) : Resolved (fun q => S q ∨ q = p) s u := by
  have hset := h.same
  refine ⟨?_, ?_, ?_, ?_, ?_⟩
  · rw [h'.frame, h.frame]
  · intro q hq
    rw [not_or] at hq
    rw [h'.kept q hq.2, h.kept q hq.1]
  · rintro q v (hq | rfl) hv
    · have hqp : q ≠ p := fun e => hp (e ▸ hq)
      rw [h'.kept q hqp]
      exact h.settled q v hq hv
    · exact h'.settled q v rfl (by rw [hset.determined, hv])
  · intro q
    by_cases hqp : q = p
    · subst hqp
      have hk := h.kept q hp
      have hf : flag q t = flag q s := by rw [h.flags, hk]; simp
      rw [h'.flags, hf, hk, hset.fires]
    · rw [h'.flags, h'.kept q hqp, h.flags]
      simp
  · intro q
    by_cases hqp : q = p
    · subst hqp
      have hk := h.kept q hp
      have hf : flag q t = flag q s := by rw [h.flags, hk]; simp
      have hc : capture q t = capture q s := by rw [h.captures, hk]; simp
      rw [h'.captures, hf, hc, hk, hset.fires]
    · rw [h'.captures, h'.kept q hqp, h.captures]
      simp

theorem Resolved.congr {S T : Pin → Prop} {s t : State} (h : Resolved S s t) (hST : ∀ q, S q ↔ T q) :
    Resolved T s t := by
  have : S = T := funext fun q => propext (hST q)
  exact this ▸ h

/-- The pins a list of bits of a mask selects. -/
def selected (b : Bank) (m : Byte) (ks : List (Fin 8)) (q : Pin) : Prop :=
  ∃ k ∈ ks, m.getLsbD k = true ∧ q = pinOf b k

theorem foldl_resolveBit_resolved (b : Bank) (m : Byte) (s : State) (ks js : List (Fin 8)) (t : State)
    (hnd : (ks.reverse ++ js).Nodup) (h : Resolved (selected b m ks) s t) :
    Resolved (selected b m (js.reverse ++ ks)) s (js.foldl (resolveBit b m) t) := by
  induction js generalizing ks t with
  | nil => exact h
  | cons j js ih =>
    have hj : j ∉ ks := by
      simp only [List.nodup_append, List.mem_reverse, List.mem_cons] at hnd
      exact fun hk => hnd.2.2 j hk j (Or.inl rfl) rfl
    have hnd' : ((j :: ks).reverse ++ js).Nodup := by simpa using hnd
    have hstep : Resolved (selected b m (j :: ks)) s (resolveBit b m t j) := by
      unfold resolveBit
      by_cases hm : m.getLsbD j = true
      · rw [if_pos hm]
        have hp : ¬selected b m ks (pinOf b j) := by
          rintro ⟨k, hk, -, he⟩
          have : j = k := by
            have := congrArg bitOf he
            simpa [Fin.ext_iff] using this
          exact hj (this ▸ hk)
        refine (h.step hp (resolvePin_resolved _ t)).congr fun q => ?_
        constructor
        · rintro (⟨k, hk, hmk, rfl⟩ | rfl)
          · exact ⟨k, List.mem_cons_of_mem _ hk, hmk, rfl⟩
          · exact ⟨j, by simp, hm, rfl⟩
        · rintro ⟨k, hk, hmk, rfl⟩
          rcases List.mem_cons.1 hk with rfl | hk
          · exact Or.inr rfl
          · exact Or.inl ⟨k, hk, hmk, rfl⟩
      · rw [if_neg hm]
        refine h.congr fun q => ?_
        constructor
        · rintro ⟨k, hk, hmk, rfl⟩
          exact ⟨k, List.mem_cons_of_mem _ hk, hmk, rfl⟩
        · rintro ⟨k, hk, hmk, rfl⟩
          rcases List.mem_cons.1 hk with rfl | hk
          · exact absurd hmk hm
          · exact ⟨k, hk, hmk, rfl⟩
    have := ih (j :: ks) _ hnd' hstep
    simpa using this

/-- R97: `resolve_changed(b, m)` re-resolves exactly the pins of bank `b` whose bits are set in `m`. -/
theorem resolveChanged_resolved (b : Bank) (m : Byte) (s : State) :
    Resolved (fun q => bankOf q = b ∧ m.getLsbD (bitOf q) = true) s (resolveChanged b m s) := by
  have h0 : Resolved (selected b m []) s s := (Resolved.refl s).congr fun q => by simp [selected]
  have h := foldl_resolveBit_resolved b m s [] allBits s (by decide) h0
  refine h.congr fun q => ?_
  constructor
  · rintro ⟨k, -, hmk, rfl⟩
    simp [hmk]
  · rintro ⟨rfl, hm⟩
    refine ⟨⟨bitOf q, bitOf_lt q⟩, ?_, hm, (pinOf_bankOf_bitOf q).symm⟩
    generalize (⟨bitOf q, bitOf_lt q⟩ : Fin 8) = k
    revert k; decide

end Sys2Proof.Machine
end

