-- ==== Sys2Proof/Laws/Steps.lean ====
section
/-! SUPPORT. What each shared operation of the meanings can do, said once: the flags a stored register or an event
leaves, and the three ways a transaction ends (R40, R135). -/

namespace Sys2Proof.Machine

theorem levelEval_same (s : State) : SameSetting s (levelEval s) := by
  constructor <;> simp

theorem levelEval_level (s : State) (p : Pin) : level p (levelEval s) = level p s := by
  simp [level]

/-- R97, R102 to R104: re-resolving some pins and then `level_eval` leaves the flags that follow from the step. -/
theorem Resolved.flagsFollow {S : Pin → Prop} {s t : State} (h : Resolved S s t) :
    FlagsFollow s.intf s (levelEval t) := by
  intro p
  have hset := levelEval_same t
  have hm : mismatched p (levelEval t) = mismatched p t := hset.mismatched (levelEval_level t p)
  have hr : raises s (levelEval t) p =
      ((level p t != level p s && fires p (level p t) s) || mismatched p t) := by
    rw [raises, levelEval_level, hm, hset.fires, h.same.fires]
  have hb : pinBit s.intf p = flag p s := rfl
  rw [hr, hb, levelEval_level, flag_levelEval, capture_levelEval, h.flags, h.captures]
  cases flag p s <;> cases (level p t != level p s && fires p (level p t) s) <;> cases mismatched p t <;> simp

/-- R103: `level_eval` alone. -/
theorem levelEval_flagsFollow (s : State) : FlagsFollow s.intf s (levelEval s) := (Resolved.refl s).flagsFollow

/-- `FlagsFollow` looks at the levels and captures of the first state only. -/
theorem FlagsFollow.of_same {base : Banked Byte} {s s' t : State} (h : FlagsFollow base s' t) (hl : s'.lvl = s.lvl)
    (hc : s'.cap = s.cap) : FlagsFollow base s t := by
  intro p
  have := h p
  simpa [raises, level, capture, hl, hc] using this

/-- `FlagsFollow` does not look at what the transaction gave its issuer. -/
theorem FlagsFollow.setReply {base : Banked Byte} {s t : State} (h : FlagsFollow base s t) (r : Reply) :
    FlagsFollow base s (t.setReply r) := h

/-- `level_eval` after a step that changes levels, flags, captures and draws only. -/
theorem Resolved.eval_frame {S : Pin → Prop} {s t : State} (h : Resolved S s t) :
    levelEval t = { s with lvl := (levelEval t).lvl, intf := (levelEval t).intf, cap := (levelEval t).cap,
                           draws := (levelEval t).draws } := by
  have hf := h.frame
  unfold levelEval
  generalize evalFlags t = f
  generalize evalCaptures t = c
  rw [hf]

/-- R40, R135: a completed read. -/
theorem readTx_completes {s : State} (effect : State → Byte × State) (h : s.fate = .completes) :
    readTx effect s = .next ((effect s).2.setReply (.value (effect s).1)) := by simp [readTx, h]

/-- R135: a failed read without a side effect of its own. -/
theorem readTx_fails {s : State} (effect : State → Byte × State) (h : s.fate = .fails) :
    readTx effect s = .next (s.setReply .failed) := by simp [readTx, h]

/-- R40, R135: a completed acknowledging read. -/
theorem ackReadTx_completes {s : State} (effect : State → Byte × State) (h : s.fate = .completes) :
    ackReadTx effect s = .next ((effect s).2.setReply (.value (effect s).1)) := by simp [ackReadTx, h]

/-- R40, R135: a completed write. -/
theorem writeTx_completes {s : State} (d : Byte) (effect : State → State) (h : s.fate = .completes) :
    writeTx d effect s = .next ((effect s).setReply (.written d)) := by simp [writeTx, h]

/-- R135: a failed transaction reached the chip or did not. -/
theorem failOrReach_cases (effect : State → State) (s : State) :
    failOrReach effect s = (effect (s.drawn 1)).setReply .failed ∨
      failOrReach effect s = (s.drawn 1).setReply .failed := by
  cases h : Config.freeBit s.draws <;> simp [failOrReach, drawBit, h]

/-- Everything a read can do. -/
theorem readTx_cases (effect : State → Byte × State) (s : State) :
    readTx effect s = .next ((effect s).2.setReply (.value (effect s).1)) ∨
      readTx effect s = .next (s.setReply .failed) := by
  cases h : s.fate
  · exact .inl (readTx_completes effect h)
  · exact .inr (readTx_fails effect h)

/-- Everything an acknowledging read can do. -/
theorem ackReadTx_cases (effect : State → Byte × State) (s : State) :
    ackReadTx effect s = .next ((effect s).2.setReply (.value (effect s).1)) ∨
      ackReadTx effect s = .next ((effect (s.drawn 1)).2.setReply .failed) ∨
      ackReadTx effect s = .next ((s.drawn 1).setReply .failed) := by
  cases h : s.fate
  · exact .inl (ackReadTx_completes effect h)
  · rcases failOrReach_cases (fun s => (effect s).2) s with he | he <;> simp [ackReadTx, h, he]

/-- Everything a write can do. -/
theorem writeTx_cases (d : Byte) (effect : State → State) (s : State) :
    writeTx d effect s = .next ((effect s).setReply (.written d)) ∨
      writeTx d effect s = .next ((effect (s.drawn 1)).setReply .failed) ∨
      writeTx d effect s = .next ((s.drawn 1).setReply .failed) := by
  cases h : s.fate
  · exact .inl (writeTx_completes d effect h)
  · rcases failOrReach_cases effect s with he | he <;> simp [writeTx, h, he]

end Sys2Proof.Machine
end

