-- ==== Sys2Proof/Laws/Exec.lean ====
section
/-! SUPPORT. What one instruction can do, said once: it stores something (`update`), re-resolves some pins (`reresolves`),
evaluates the level conditions, and gives a reply; or it failed without reaching the chip; or it was refused. -/

namespace Sys2Proof.Machine

/-- What an instruction stores, clears or draws before any pin is re-resolved. -/
def update (i : Instr) (s : State) : State :=
  match i with
  | .rdIodirA | .rdIodirB | .rdGpintenA | .rdGpintenB | .rdDefvalA | .rdDefvalB
  | .rdIntconA | .rdIntconB | .rdGppuA | .rdGppuB | .rdIntfA | .rdIntfB
  | .rdOlatA | .rdOlatB => s
  | .rdIocon => s.drawn 1
  | .rdGpioA => s.setIntf .bankA 0
  | .rdGpioB => s.setIntf .bankB 0
  | .rdIntcapA => (s.drawn 8).setIntf .bankA 0
  | .rdIntcapB => (s.drawn 8).setIntf .bankB 0
  | .wrIodirA d => s.setIodir .bankA d
  | .wrIodirB d => s.setIodir .bankB d
  | .wrGpintenA d => s.setGpinten .bankA d
  | .wrGpintenB d => s.setGpinten .bankB d
  | .wrDefvalA d => s.setDefval .bankA d
  | .wrDefvalB d => s.setDefval .bankB d
  | .wrIntconA d => s.setIntcon .bankA d
  | .wrIntconB d => s.setIntcon .bankB d
  | .wrIocon d => s.setIocon (d &&& 0x7E)
  | .wrGppuA d => s.setGppu .bankA d
  | .wrGppuB d => s.setGppu .bankB d
  | .wrIntfA d => if s.params.intfWrite = .clearOnZero then s.setIntf .bankA (s.intf.get .bankA &&& d) else s
  | .wrIntfB d => if s.params.intfWrite = .clearOnZero then s.setIntf .bankB (s.intf.get .bankB &&& d) else s
  | .wrOlatA d => s.setOlat .bankA d
  | .wrOlatB d => s.setOlat .bankB d
  | .evD0 p => s.setExt p .d0
  | .evD1 p => s.setExt p .d1
  | .evZ p => s.setExt p .z

/-- R97: which pins an instruction re-resolves. -/
def reresolves (i : Instr) (s : State) (q : Pin) : Prop :=
  match i with
  | .wrIodirA d => bankOf q = .bankA ∧ (s.iodir.get .bankA ^^^ d).getLsbD (bitOf q) = true
  | .wrIodirB d => bankOf q = .bankB ∧ (s.iodir.get .bankB ^^^ d).getLsbD (bitOf q) = true
  | .wrGppuA d => bankOf q = .bankA ∧ (s.gppu.get .bankA ^^^ d).getLsbD (bitOf q) = true
  | .wrGppuB d => bankOf q = .bankB ∧ (s.gppu.get .bankB ^^^ d).getLsbD (bitOf q) = true
  | .wrOlatA d => bankOf q = .bankA ∧ (s.olat.get .bankA ^^^ d).getLsbD (bitOf q) = true
  | .wrOlatB d => bankOf q = .bankB ∧ (s.olat.get .bankB ^^^ d).getLsbD (bitOf q) = true
  | .evD0 p => q = p
  | .evD1 p => q = p
  | .evZ p => q = p
  | .rdIodirA | .rdIodirB | .rdGpintenA | .rdGpintenB | .rdDefvalA | .rdDefvalB
  | .rdIntconA | .rdIntconB | .rdIocon | .rdGppuA | .rdGppuB | .rdIntfA
  | .rdIntfB | .rdIntcapA | .rdIntcapB | .rdGpioA | .rdGpioB | .rdOlatA
  | .rdOlatB | .wrGpintenA _ | .wrGpintenB _ | .wrDefvalA _ | .wrDefvalB _ | .wrIntconA _
  | .wrIntconB _ | .wrIocon _ | .wrIntfA _ | .wrIntfB _ => False

/-- The instruction reached the chip from `s` and left it as `t`, but for the reply. -/
def Reached (i : Instr) (s t : State) : Prop :=
  ∃ u, Resolved (reresolves i s) (update i s) u ∧ t = levelEval u

theorem Reached.of_plain {i : Instr} {s : State} (h : ∀ q, ¬reresolves i s q) : Reached i s (levelEval (update i s)) :=
  ⟨_, (Resolved.refl _).congr fun q => by simp [h q], rfl⟩

/-- Everything an instruction can do when it answers a next state. -/
inductive ExecCase (i : Instr) (s t : State) : Prop where
  /-- It reached the chip (a failed transaction that did spent one draw first). -/
  | reached (n : Nat) (u : State) (r : Reply) (hu : Reached i (s.drawn n) u) (ht : t = u.setReply r)
  /-- R135: it failed, and the chip is as it was. -/
  | missed (n : Nat) (ht : t = (s.drawn n).setReply .failed)
  /-- R134: it was refused. -/
  | refused (r : RefuseReason) (hi : i.wellFormed = false) (ht : t = s.markRefused.setReply (.refused r))

theorem readTx_case {i : Instr} {s t : State} (e : State → Byte × State)
    (he : Reached i s (e s).2) (h : readTx e s = .next t) : ExecCase i s t := by
  rcases readTx_cases e s with hc | hc <;> rw [hc] at h <;> injection h with h
  · exact .reached 0 (e s).2 _ he h.symm
  · exact .missed 0 h.symm

theorem ackReadTx_case {i : Instr} {s t : State} (e : State → Byte × State)
    (he : ∀ n, Reached i (s.drawn n) (e (s.drawn n)).2) (h : ackReadTx e s = .next t) : ExecCase i s t := by
  rcases ackReadTx_cases e s with hc | hc | hc <;> rw [hc] at h <;> injection h with h
  · exact .reached 0 (e s).2 _ (he 0) h.symm
  · exact .reached 1 (e (s.drawn 1)).2 _ (he 1) h.symm
  · exact .missed 1 h.symm

theorem writeTx_case {i : Instr} {s t : State} (d : Byte) (e : State → State)
    (he : ∀ n, Reached i (s.drawn n) (e (s.drawn n))) (h : writeTx d e s = .next t) : ExecCase i s t := by
  rcases writeTx_cases d e s with hc | hc | hc <;> rw [hc] at h <;> injection h with h
  · exact .reached 0 (e s) _ (he 0) h.symm
  · exact .reached 1 (e (s.drawn 1)) _ (he 1) h.symm
  · exact .missed 1 h.symm

theorem reached_storeIntf {s : State} (b : Bank) (d : Byte) (i : Instr) (hi : ∀ q s, ¬reresolves i s q)
    (hu : update i s = if s.params.intfWrite = .clearOnZero then s.setIntf b (s.intf.get b &&& d) else s) :
    Reached i s (storeIntf b d s) := by
  have h := Reached.of_plain (i := i) (s := s) (fun q => hi q s)
  rw [hu] at h
  unfold storeIntf
  cases hw : s.params.intfWrite <;> simpa [hw] using h

theorem update_lvl (i : Instr) (s : State) : (update i s).lvl = s.lvl := by
  cases i <;> first | rfl | (simp only [update]; split <;> rfl)

theorem update_cap (i : Instr) (s : State) : (update i s).cap = s.cap := by
  cases i <;> first | rfl | (simp only [update]; split <;> rfl)

theorem update_params (i : Instr) (s : State) : (update i s).params = s.params := by
  cases i <;> first | rfl | (simp only [update]; split <;> rfl)

/-- R96, R97: what fixes a pin's level changes only where the pin is re-resolved. -/
theorem determined_update {i : Instr} {s : State} {p : Pin} (h : ¬reresolves i s p) : determined p (update i s) = determined p s := by
  cases i
  all_goals try rfl
  all_goals try (simp only [update]; split <;> rfl)
  all_goals simp only [reresolves, not_and, update, BitVec.getLsbD_xor] at h ⊢
  case evD0 q =>
    have hq : (s.ext.set q .d0).get p = s.ext.get p :=
      Vector.getElem_set_ne q.isLt p.isLt fun e => h (Fin.ext e.symm)
    simp only [determined, State.setExt_ext, hq]
    rfl
  case evD1 q =>
    have hq : (s.ext.set q .d1).get p = s.ext.get p :=
      Vector.getElem_set_ne q.isLt p.isLt fun e => h (Fin.ext e.symm)
    simp only [determined, State.setExt_ext, hq]
    rfl
  case evZ q =>
    have hq : (s.ext.set q .z).get p = s.ext.get p :=
      Vector.getElem_set_ne q.isLt p.isLt fun e => h (Fin.ext e.symm)
    simp only [determined, State.setExt_ext, hq]
    rfl
  all_goals
    rename_i d
    simp only [determined, State.setIodir, State.setGppu, State.setOlat, pinBit_set]
    by_cases hb : bankOf p = .bankA
    · simp [hb] at h ⊢
      try simp [pinBit, hb]
      try simp [h]
    · have hb : bankOf p = .bankB := by cases h : bankOf p <;> simp_all
      simp [hb] at h ⊢
      try simp [pinBit, hb]
      try simp [h]

/-- R97: a pin the instruction does not re-resolve keeps its level. -/
theorem Reached.level {i : Instr} {s t : State} {p : Pin} (h : Reached i s t) (hp : ¬reresolves i s p) :
    level p t = level p s := by
  obtain ⟨u, hu, rfl⟩ := h
  rw [levelEval_level, hu.kept p hp]
  simp [Sys2Proof.Machine.level, update_lvl]

/-- R102 to R104: the flags an instruction leaves. -/
theorem Reached.flagsFollow {i : Instr} {s t : State} (h : Reached i s t) :
    FlagsFollow (update i s).intf s t := by
  obtain ⟨u, hu, rfl⟩ := h
  exact hu.flagsFollow.of_same (update_lvl i s) (update_cap i s)

/-- R85: what a read of the control register does when it completes. -/
abbrev controlRead (s : State) : Byte × State :=
  ((s.iocon &&& 0xFE) ||| (BitVec.ofBool (drawBit s).1).setWidth 8, levelEval (drawBit s).2)

/-- R91: what a read of a capture register does when it completes. -/
abbrev captureRead (b : Bank) (s : State) : Byte × State :=
  ((s.intf.get b &&& s.cap.get b) ||| (~~~(s.intf.get b) &&& (drawByte s).1), ack b (drawByte s).2)

/-- R40, R132 to R135: every next state an instruction can answer. -/
theorem exec_cases {i : Instr} {s t : State} (h : exec i s = .next t) : ExecCase i s t := by
  cases i with
  | rdIodirA => exact readTx_case (fun s => (s.iodir.get .bankA, levelEval s)) (.of_plain (i := .rdIodirA) fun _ h => h) h
  | rdIodirB => exact readTx_case (fun s => (s.iodir.get .bankB, levelEval s)) (.of_plain (i := .rdIodirB) fun _ h => h) h
  | rdGpintenA => exact readTx_case (fun s => (s.gpinten.get .bankA, levelEval s)) (.of_plain (i := .rdGpintenA) fun _ h => h) h
  | rdGpintenB => exact readTx_case (fun s => (s.gpinten.get .bankB, levelEval s)) (.of_plain (i := .rdGpintenB) fun _ h => h) h
  | rdDefvalA => exact readTx_case (fun s => (s.defval.get .bankA, levelEval s)) (.of_plain (i := .rdDefvalA) fun _ h => h) h
  | rdDefvalB => exact readTx_case (fun s => (s.defval.get .bankB, levelEval s)) (.of_plain (i := .rdDefvalB) fun _ h => h) h
  | rdIntconA => exact readTx_case (fun s => (s.intcon.get .bankA, levelEval s)) (.of_plain (i := .rdIntconA) fun _ h => h) h
  | rdIntconB => exact readTx_case (fun s => (s.intcon.get .bankB, levelEval s)) (.of_plain (i := .rdIntconB) fun _ h => h) h
  | rdIocon => exact readTx_case controlRead (.of_plain (i := .rdIocon) fun _ h => h) h
  | rdGppuA => exact readTx_case (fun s => (s.gppu.get .bankA, levelEval s)) (.of_plain (i := .rdGppuA) fun _ h => h) h
  | rdGppuB => exact readTx_case (fun s => (s.gppu.get .bankB, levelEval s)) (.of_plain (i := .rdGppuB) fun _ h => h) h
  | rdIntfA => exact readTx_case (fun s => (s.intf.get .bankA, levelEval s)) (.of_plain (i := .rdIntfA) fun _ h => h) h
  | rdIntfB => exact readTx_case (fun s => (s.intf.get .bankB, levelEval s)) (.of_plain (i := .rdIntfB) fun _ h => h) h
  | rdIntcapA => exact ackReadTx_case (captureRead .bankA) (fun _ => .of_plain (i := .rdIntcapA) fun _ h => h) h
  | rdIntcapB => exact ackReadTx_case (captureRead .bankB) (fun _ => .of_plain (i := .rdIntcapB) fun _ h => h) h
  | rdGpioA => exact ackReadTx_case (fun s => (s.lvl.get .bankA, ack .bankA s)) (fun _ => .of_plain (i := .rdGpioA) fun _ h => h) h
  | rdGpioB => exact ackReadTx_case (fun s => (s.lvl.get .bankB, ack .bankB s)) (fun _ => .of_plain (i := .rdGpioB) fun _ h => h) h
  | rdOlatA => exact readTx_case (fun s => (s.olat.get .bankA, levelEval s)) (.of_plain (i := .rdOlatA) fun _ h => h) h
  | rdOlatB => exact readTx_case (fun s => (s.olat.get .bankB, levelEval s)) (.of_plain (i := .rdOlatB) fun _ h => h) h
  | wrIodirA d => exact writeTx_case d (storeIodir .bankA d) (fun _ => ⟨_, resolveChanged_resolved _ _ _, rfl⟩) h
  | wrIodirB d => exact writeTx_case d (storeIodir .bankB d) (fun _ => ⟨_, resolveChanged_resolved _ _ _, rfl⟩) h
  | wrGpintenA d => exact writeTx_case d (storeGpinten .bankA d) (fun _ => .of_plain (i := .wrGpintenA d) fun _ h => h) h
  | wrGpintenB d => exact writeTx_case d (storeGpinten .bankB d) (fun _ => .of_plain (i := .wrGpintenB d) fun _ h => h) h
  | wrDefvalA d => exact writeTx_case d (storeDefval .bankA d) (fun _ => .of_plain (i := .wrDefvalA d) fun _ h => h) h
  | wrDefvalB d => exact writeTx_case d (storeDefval .bankB d) (fun _ => .of_plain (i := .wrDefvalB d) fun _ h => h) h
  | wrIntconA d => exact writeTx_case d (storeIntcon .bankA d) (fun _ => .of_plain (i := .wrIntconA d) fun _ h => h) h
  | wrIntconB d => exact writeTx_case d (storeIntcon .bankB d) (fun _ => .of_plain (i := .wrIntconB d) fun _ h => h) h
  | wrIocon d => 
    change (if d.getLsbD 7 then _ else _) = _ at h
    cases hd : d.getLsbD 7 <;> rw [hd] at h
    · exact writeTx_case d (storeIocon d) (fun _ => .of_plain (i := .wrIocon d) fun _ h => h) h
    · injection h with h
      exact .refused _ (by simp [Instr.wellFormed, hd]) h.symm
  | wrGppuA d => exact writeTx_case d (storeGppu .bankA d) (fun _ => ⟨_, resolveChanged_resolved _ _ _, rfl⟩) h
  | wrGppuB d => exact writeTx_case d (storeGppu .bankB d) (fun _ => ⟨_, resolveChanged_resolved _ _ _, rfl⟩) h
  | wrIntfA d => exact writeTx_case d (storeIntf .bankA d) (fun _ => reached_storeIntf _ _ (.wrIntfA d) (fun _ _ h => h) rfl) h
  | wrIntfB d => exact writeTx_case d (storeIntf .bankB d) (fun _ => reached_storeIntf _ _ (.wrIntfB d) (fun _ _ h => h) rfl) h
  | wrOlatA d => exact writeTx_case d (storeOlat .bankA d) (fun _ => ⟨_, resolveChanged_resolved _ _ _, rfl⟩) h
  | wrOlatB d => exact writeTx_case d (storeOlat .bankB d) (fun _ => ⟨_, resolveChanged_resolved _ _ _, rfl⟩) h
  | evD0 p => 
    injection h with h
    exact .reached 0 t t.reply ⟨_, resolvePin_resolved _ _, h.symm⟩ rfl
  | evD1 p => 
    injection h with h
    exact .reached 0 t t.reply ⟨_, resolvePin_resolved _ _, h.symm⟩ rfl
  | evZ p => 
    injection h with h
    exact .reached 0 t t.reply ⟨_, resolvePin_resolved _ _, h.symm⟩ rfl

/-- An instruction always answers a next state (R132, R133). -/
theorem exec_completes (i : Instr) (s : State) : ∃ t, exec i s = .next t := by
  have hr : ∀ e, ∃ t, readTx e s = .next t := fun e => by rcases readTx_cases e s with h | h <;> exact ⟨_, h⟩
  have ha : ∀ e, ∃ t, ackReadTx e s = .next t := fun e => by
    rcases ackReadTx_cases e s with h | h | h <;> exact ⟨_, h⟩
  have hw : ∀ d e, ∃ t, writeTx d e s = .next t := fun d e => by
    rcases writeTx_cases d e s with h | h | h <;> exact ⟨_, h⟩
  cases i with
  | rdIodirA => exact hr (fun s => (s.iodir.get .bankA, levelEval s))
  | rdIodirB => exact hr (fun s => (s.iodir.get .bankB, levelEval s))
  | rdGpintenA => exact hr (fun s => (s.gpinten.get .bankA, levelEval s))
  | rdGpintenB => exact hr (fun s => (s.gpinten.get .bankB, levelEval s))
  | rdDefvalA => exact hr (fun s => (s.defval.get .bankA, levelEval s))
  | rdDefvalB => exact hr (fun s => (s.defval.get .bankB, levelEval s))
  | rdIntconA => exact hr (fun s => (s.intcon.get .bankA, levelEval s))
  | rdIntconB => exact hr (fun s => (s.intcon.get .bankB, levelEval s))
  | rdIocon => exact hr controlRead
  | rdGppuA => exact hr (fun s => (s.gppu.get .bankA, levelEval s))
  | rdGppuB => exact hr (fun s => (s.gppu.get .bankB, levelEval s))
  | rdIntfA => exact hr (fun s => (s.intf.get .bankA, levelEval s))
  | rdIntfB => exact hr (fun s => (s.intf.get .bankB, levelEval s))
  | rdIntcapA => exact ha (captureRead .bankA)
  | rdIntcapB => exact ha (captureRead .bankB)
  | rdGpioA => exact ha (fun s => (s.lvl.get .bankA, ack .bankA s))
  | rdGpioB => exact ha (fun s => (s.lvl.get .bankB, ack .bankB s))
  | rdOlatA => exact hr (fun s => (s.olat.get .bankA, levelEval s))
  | rdOlatB => exact hr (fun s => (s.olat.get .bankB, levelEval s))
  | wrIodirA d => exact hw _ _
  | wrIodirB d => exact hw _ _
  | wrGpintenA d => exact hw _ _
  | wrGpintenB d => exact hw _ _
  | wrDefvalA d => exact hw _ _
  | wrDefvalB d => exact hw _ _
  | wrIntconA d => exact hw _ _
  | wrIntconB d => exact hw _ _
  | wrIocon d => 
    change ∃ t, (if d.getLsbD 7 then _ else _) = Host.Outcome.next t
    cases d.getLsbD 7
    · exact hw _ _
    · exact ⟨_, rfl⟩
  | wrGppuA d => exact hw _ _
  | wrGppuB d => exact hw _ _
  | wrIntfA d => exact hw _ _
  | wrIntfB d => exact hw _ _
  | wrOlatA d => exact hw _ _
  | wrOlatB d => exact hw _ _
  | evD0 p => exact ⟨_, rfl⟩
  | evD1 p => exact ⟨_, rfl⟩
  | evZ p => exact ⟨_, rfl⟩

end Sys2Proof.Machine
end

