-- ==== Sys2Proof/Laws/Driver.lean ====
section
/-! SUPPORT. What a thread's move and a step of the machine can do, said once: an instruction, a refusal, and changes of
the host's side alone. -/

namespace Sys2Proof.Machine

/-- Some fields of the host's side are other, everything the chip holds is the same. -/
def HostOnly (s t : State) : Prop :=
  t = { s with handle := t.handle, threads := t.threads, agenda := t.agenda, fate := t.fate }

theorem HostOnly.refl (s : State) : HostOnly s s := rfl

theorem HostOnly.trans {s t u : State} (h : HostOnly s t) (h' : HostOnly t u) : HostOnly s u := by
  unfold HostOnly at *
  rw [h] at h'
  exact h'

theorem setThread_hostOnly (s : State) (t : Nat) (x : Thread) : HostOnly s (s.setThread t x) := rfl

theorem setHandle_hostOnly (s : State) (h : Handle) : HostOnly s (s.setHandle h) := rfl

theorem beginOp_hostOnly (t : Nat) (x : Thread) (op : DriverOp) (s : State) : HostOnly s (beginOp t x op s) := by
  cases op <;> simp only [beginOp] <;> repeat' split
  all_goals rfl

theorem abortOp_hostOnly (t : Nat) (x : Thread) (op : DriverOp) (s : State) : HostOnly s (abortOp t x op s) := by
  cases op <;> rfl

theorem advanceOp_hostOnly (t : Nat) (x : Thread) (op : DriverOp) (moved : List Byte) (s : State) :
    HostOnly s (advanceOp t x op moved s) := by
  unfold advanceOp
  split <;> rfl

theorem afterTransaction_hostOnly (t : Nat) (x : Thread) (op : DriverOp) (moved : List Byte) (s : State) :
    HostOnly s (afterTransaction t x op moved s) := by
  unfold afterTransaction
  split <;> first | exact advanceOp_hostOnly .. | exact abortOp_hostOnly ..

theorem leaveScope_hostOnly (t : Nat) (s : State) : HostOnly s (leaveScope t s) := by
  unfold leaveScope
  repeat' split
  all_goals rfl

/-- R118: a thread between operations leaves its scope. -/
theorem leaveScope_start {t : Nat} {s : State} {x : Thread} (hx : s.threads[t]? = some x) (hp : x.phase = .start) :
    leaveScope t s = s.release.setThread t x.leave := by simp [leaveScope, hx, hp]

/-- R45, R118: a thread in the middle of an operation does not. -/
theorem leaveScope_running {t : Nat} {s : State} {x : Thread} {moved : List Byte} (hx : s.threads[t]? = some x)
    (hp : x.phase = .running moved) : leaveScope t s = s := by simp [leaveScope, hx, hp]

/-- Everything a step, or a part of one, can do: nothing to the chip; one instruction; or one refusal. -/
inductive StepCase (s t : State) : Prop where
  | host (h : HostOnly s t)
  | ran (i : Instr) (u v : State) (hu : HostOnly s u) (hi : exec i u = .next v) (ht : HostOnly v t)
  | refused (r : RefuseReason) (u : State) (hu : HostOnly s u) (ht : t = u.markRefused.setReply (.refused r))

theorem StepCase.after {s u t : State} (h : HostOnly s u) (hc : StepCase u t) : StepCase s t := by
  cases hc with
  | host h' => exact .host (h.trans h')
  | ran i u' v hu hi ht => exact .ran i u' v (h.trans hu) hi ht
  | refused r u' hu ht => exact .refused r u' (h.trans hu) ht

theorem moveThread_cases {n : Nat} {s t : State} (h : moveThread n s = .next t) : StepCase s t := by
  unfold moveThread at h
  split at h
  · injection h with h
    exact .host (h ▸ HostOnly.refl s)
  · split at h
    · injection h with h
      exact .host (h ▸ HostOnly.refl s)
    · split at h
      · injection h with h
        exact .host (h ▸ beginOp_hostOnly ..)
      · split at h
        · injection h with h
          exact .host (h ▸ setThread_hostOnly ..)
        · rename_i i _
          obtain ⟨u, hu⟩ := exec_completes i s
          rw [hu] at h
          injection h with h
          exact .ran i s u rfl hu (h ▸ afterTransaction_hostOnly ..)

theorem serveDecoded_cases {d : Decoded} {s t : State} (h : serveDecoded d s = .next t) : StepCase s t := by
  cases d with
  | instr i => exact .ran i s t rfl h rfl
  | refuse r => injection h with h; exact .refused r s rfl h.symm

theorem serve_cases {q : Request} {s t : State} (h : serve q s = .next t) : StepCase s t := by
  cases q with
  | tx w f => exact (serveDecoded_cases h).after (u := s.setFate f) rfl
  | event w => exact serveDecoded_cases h
  | burst a n => injection h with h; exact .refused _ s rfl h.symm
  | spawn p => injection h with h; subst h; exact .host rfl
  | move n f => exact (moveThread_cases h).after (u := s.setFate f) rfl
  | leaveScope n => injection h with h; exact .host (h ▸ leaveScope_hostOnly n s)

theorem step_cases {s t : State} (h : step s = .next t) : StepCase s t := by
  unfold step at h
  split at h
  · injection h with h
    exact .host (h ▸ HostOnly.refl s)
  · rename_i q rest _
    exact (serve_cases h).after (u := { s with agenda := rest }) rfl

end Sys2Proof.Machine
end

