-- ==== Sys2Proof/Laws/PerInstr.lean ====
section
/-! SUPPORT. One lemma per instruction: the bits of its word, numbered as spec/opcode_table.json numbers them (R54), read
back as the instruction. -/

namespace Sys2Proof.Laws.RoundTrip

/-- How many bits, in whole bytes, the opcode table gives a word, and the word's bits as a number. -/
def tableBits : Word → Nat × Nat
  | .tx w => (24, w.toNat)
  | .ev e => (8, e.toNat)

/-- A well-formed instruction's table word is read back as that instruction. -/
def Statement (i : Instr) : Prop :=
  i.WellFormed →
    decodeTableWord (tableBits (encode RegMap.vendor i)).1 (tableBits (encode RegMap.vendor i)).2 = some i

theorem rdIodirA : Statement .rdIodirA := fun _ => by decide

theorem rdIodirB : Statement .rdIodirB := fun _ => by decide

theorem rdGpintenA : Statement .rdGpintenA := fun _ => by decide

theorem rdGpintenB : Statement .rdGpintenB := fun _ => by decide

theorem rdDefvalA : Statement .rdDefvalA := fun _ => by decide

theorem rdDefvalB : Statement .rdDefvalB := fun _ => by decide

theorem rdIntconA : Statement .rdIntconA := fun _ => by decide

theorem rdIntconB : Statement .rdIntconB := fun _ => by decide

theorem rdIocon : Statement .rdIocon := fun _ => by decide

theorem rdGppuA : Statement .rdGppuA := fun _ => by decide

theorem rdGppuB : Statement .rdGppuB := fun _ => by decide

theorem rdIntfA : Statement .rdIntfA := fun _ => by decide

theorem rdIntfB : Statement .rdIntfB := fun _ => by decide

theorem rdIntcapA : Statement .rdIntcapA := fun _ => by decide

theorem rdIntcapB : Statement .rdIntcapB := fun _ => by decide

theorem rdGpioA : Statement .rdGpioA := fun _ => by decide

theorem rdGpioB : Statement .rdGpioB := fun _ => by decide

theorem rdOlatA : Statement .rdOlatA := fun _ => by decide

theorem rdOlatB : Statement .rdOlatB := fun _ => by decide

theorem wrIodirA (d : Byte) : Statement (.wrIodirA d) := fun _ => by revert d; decide

theorem wrIodirB (d : Byte) : Statement (.wrIodirB d) := fun _ => by revert d; decide

theorem wrGpintenA (d : Byte) : Statement (.wrGpintenA d) := fun _ => by revert d; decide

theorem wrGpintenB (d : Byte) : Statement (.wrGpintenB d) := fun _ => by revert d; decide

theorem wrDefvalA (d : Byte) : Statement (.wrDefvalA d) := fun _ => by revert d; decide

theorem wrDefvalB (d : Byte) : Statement (.wrDefvalB d) := fun _ => by revert d; decide

theorem wrIntconA (d : Byte) : Statement (.wrIntconA d) := fun _ => by revert d; decide

theorem wrIntconB (d : Byte) : Statement (.wrIntconB d) := fun _ => by revert d; decide

theorem wrIocon (d : Byte) : Statement (.wrIocon d) := by
  revert d; unfold Statement; decide

theorem wrGppuA (d : Byte) : Statement (.wrGppuA d) := fun _ => by revert d; decide

theorem wrGppuB (d : Byte) : Statement (.wrGppuB d) := fun _ => by revert d; decide

theorem wrIntfA (d : Byte) : Statement (.wrIntfA d) := fun _ => by revert d; decide

theorem wrIntfB (d : Byte) : Statement (.wrIntfB d) := fun _ => by revert d; decide

theorem wrOlatA (d : Byte) : Statement (.wrOlatA d) := fun _ => by revert d; decide

theorem wrOlatB (d : Byte) : Statement (.wrOlatB d) := fun _ => by revert d; decide

theorem evD0 (p : Pin) : Statement (.evD0 p) := fun _ => by revert p; decide

theorem evD1 (p : Pin) : Statement (.evD1 p) := fun _ => by revert p; decide

theorem evZ (p : Pin) : Statement (.evZ p) := fun _ => by revert p; decide

end Sys2Proof.Laws.RoundTrip
end

