-- ==== Sys2Proof/Laws/Words.lean ====
section
/-! SUPPORT. The fields of the words the encoder writes (R49, R50), and the lookup of a register map (R53). -/

namespace Sys2Proof

theorem readWord_addr (a : Byte) : (0x10000#17 ||| (a.setWidth 17 <<< 8)).extractLsb' 8 8 = a := by
  revert a; decide

theorem readWord_data (a : Byte) : (0x10000#17 ||| (a.setWidth 17 <<< 8)).extractLsb' 0 8 = 0#8 := by
  revert a; decide

theorem readWord_rw (a : Byte) : (0x10000#17 ||| (a.setWidth 17 <<< 8)).getLsbD 16 = true := by
  revert a; decide

theorem writeWord_addr (a d : Byte) : ((a.setWidth 17 <<< 8) ||| d.setWidth 17).extractLsb' 8 8 = a := by
  apply BitVec.eq_of_getLsbD_eq
  intro k hk
  have h : (8 + k < 17) = True := by simp; omega
  simp [hk, h]

theorem writeWord_data (a d : Byte) : ((a.setWidth 17 <<< 8) ||| d.setWidth 17).extractLsb' 0 8 = d := by
  apply BitVec.eq_of_getLsbD_eq
  intro k hk
  have h : (k < 17) = True := by simp; omega
  simp [hk, h]

theorem writeWord_rw (a d : Byte) : ((a.setWidth 17 <<< 8) ||| d.setWidth 17).getLsbD 16 = false := by
  simp

theorem Reg.mem_all (r : Reg) : r ∈ Reg.all := by
  cases r with
  | paired k b => cases k <;> cases b <;> decide
  | iocon => decide

/-- Under an injective map the address of a register names that register. -/
theorem RegMap.lookup_addr {m : RegMap} (hm : m.injective = true) (r : Reg) : m.lookup (m.addr r) = some r := by
  have hnd : (Reg.all.map m.addr).Nodup := by simpa [RegMap.injective] using hm
  unfold RegMap.lookup
  cases h : Reg.all.find? (fun x => m.addr x == m.addr r) with
  | none => simpa using List.find?_eq_none.1 h r r.mem_all
  | some x =>
    have h1 := List.find?_some h
    simp only [beq_iff_eq] at h1
    exact congrArg some (List.inj_on_of_nodup_map hnd (List.mem_of_find?_eq_some h) r.mem_all h1)

/-- The register an address names has that address. -/
theorem RegMap.addr_of_lookup {m : RegMap} {a : Byte} {r : Reg} (h : m.lookup a = some r) : m.addr r = a := by
  simpa using List.find?_some h

theorem decode_readWord {m : RegMap} (hm : m.injective = true) (r : Reg) :
    decode m (readWord (m.addr r)) = .instr (Instr.ofRead r) := by
  simp only [decode, readWord, decodeTx, readWord_addr, readWord_data, readWord_rw, RegMap.lookup_addr hm, if_true]
  rfl

theorem decode_writeWord {m : RegMap} (hm : m.injective = true) {r : Reg} {d : Byte} {i : Instr}
    (hi : Instr.ofWrite r d = some i) : decode m (writeWord (m.addr r) d) = .instr i := by
  simp [decode, writeWord, decodeTx, writeWord_addr, writeWord_data, RegMap.lookup_addr hm, hi]

theorem encode_ofRead (m : RegMap) (r : Reg) : encode m (Instr.ofRead r) = readWord (m.addr r) := by
  cases r with
  | paired k b => cases k <;> cases b <;> rfl
  | iocon => rfl

theorem encode_ofWrite (m : RegMap) {r : Reg} {d : Byte} {i : Instr} (h : Instr.ofWrite r d = some i) :
    encode m i = writeWord (m.addr r) d := by
  cases r with
  | paired k b => cases k <;> cases b <;> first | (injection h with h; subst h; rfl) | cases h
  | iocon => injection h with h; subst h; rfl

end Sys2Proof
end

