-- ==== Sys2Proof/Machine/Assembly.lean ====
section
/-! DEFINITION. The spec's assembly syntax for the thirty-seven instructions (R58). -/

namespace Sys2Proof.Machine

/-- One hexadecimal digit. -/
def hexDigit (n : Nat) : String :=
  (["0", "1", "2", "3", "4", "5", "6", "7"] ++ ["8", "9", "A", "B", "C", "D", "E", "F"]).getD n ""

/-- R58: a byte as `0xHH`. -/
def hexByte (d : Byte) : String := "0x" ++ hexDigit (d.toNat / 16) ++ hexDigit (d.toNat % 16)

/-- R58: a pin index, in decimal. -/
def decimalPin (p : Pin) : String := (if p.val < 10 then "" else "1") ++ hexDigit (p.val % 10)

/-- R58: an instruction as the spec's assembly writes it. -/
def assembly : Instr → String
  | .rdIodirA => "RD IODIRA"
  | .rdIodirB => "RD IODIRB"
  | .rdGpintenA => "RD GPINTENA"
  | .rdGpintenB => "RD GPINTENB"
  | .rdDefvalA => "RD DEFVALA"
  | .rdDefvalB => "RD DEFVALB"
  | .rdIntconA => "RD INTCONA"
  | .rdIntconB => "RD INTCONB"
  | .rdIocon => "RD IOCON"
  | .rdGppuA => "RD GPPUA"
  | .rdGppuB => "RD GPPUB"
  | .rdIntfA => "RD INTFA"
  | .rdIntfB => "RD INTFB"
  | .rdIntcapA => "RD INTCAPA"
  | .rdIntcapB => "RD INTCAPB"
  | .rdGpioA => "RD GPIOA"
  | .rdGpioB => "RD GPIOB"
  | .rdOlatA => "RD OLATA"
  | .rdOlatB => "RD OLATB"
  | .wrIodirA d => "WR IODIRA, " ++ hexByte d
  | .wrIodirB d => "WR IODIRB, " ++ hexByte d
  | .wrGpintenA d => "WR GPINTENA, " ++ hexByte d
  | .wrGpintenB d => "WR GPINTENB, " ++ hexByte d
  | .wrDefvalA d => "WR DEFVALA, " ++ hexByte d
  | .wrDefvalB d => "WR DEFVALB, " ++ hexByte d
  | .wrIntconA d => "WR INTCONA, " ++ hexByte d
  | .wrIntconB d => "WR INTCONB, " ++ hexByte d
  | .wrIocon d => "WR IOCON, " ++ hexByte d
  | .wrGppuA d => "WR GPPUA, " ++ hexByte d
  | .wrGppuB d => "WR GPPUB, " ++ hexByte d
  | .wrIntfA d => "WR INTFA, " ++ hexByte d
  | .wrIntfB d => "WR INTFB, " ++ hexByte d
  | .wrOlatA d => "WR OLATA, " ++ hexByte d
  | .wrOlatB d => "WR OLATB, " ++ hexByte d
  | .evD0 p => "EV.D0 " ++ decimalPin p
  | .evD1 p => "EV.D1 " ++ decimalPin p
  | .evZ p => "EV.Z " ++ decimalPin p

/-- R58: what names the host thread before an instruction, when a program has more than one. -/
def threadLabel (n : Nat) : String := "T" ++ toString n ++ ":"

end Sys2Proof.Machine
end

