-- ==== Sys2Proof/Tests/Slice0.lean ====
section
/-! SUPPORT. The model's own tests: words, vectors of 95_test_vectors.md, single steps, and for every statement with
hypotheses a witness that meets them. Every expected result is the spec's (each comment names its source). -/

namespace Sys2Proof.Tests

open Sys2Proof.Machine Sys2Proof.Claims

/-- `S0` of 95_test_vectors.md, with `IOC_ON_OUTPUTS` taken as false where nothing depends on it. -/
def s0 : State :=
  { State.reset with handle := .opened, params := { launchParams with iocOnOutputs := false } }

/-- What a step leaves, looked at through `f`; nothing where it gave no next state. -/
def look {α : Type} (o : Host.Outcome State Fault Refusal) (f : State → α) : Option α :=
  match o with
  | .next t => some (f t)
  | .fault _ | .refused _ => none

/-- `s` under the vendor's reading of the reference comparison. -/
def mismatching (s : State) : State := { s with params := { s.params with triggerSense := .levelMismatch } }

/-- `s` under the other reading of a write to the flag register. -/
def ignoring (s : State) : State := { s with params := { s.params with intfWrite := .ignored } }

/-- `s` with thread 0 about to begin `op`. -/
def oneThread (op : DriverOp) (s : State) : State := { s with threads := [⟨[op], .start, []⟩] }

/-- `s` with thread 0 in the middle of `op`. -/
def midway (op : DriverOp) (moved : List Byte) (s : State) : State :=
  { s with threads := [⟨[op], .running moved, []⟩] }

/-! ### Well-formedness and words -/

/-- R56, R86: the one ill-formed term, at both ends of its range. -/
theorem test_wellFormed_refuses : Instr.wellFormed (.wrIocon 0x80) = false ∧ Instr.wellFormed (.wrIocon 0xFF) = false := by
  decide

/-- R54: well-formed terms at the ends of their ranges. -/
theorem test_wellFormed_admits : Instr.wellFormed (.wrIocon 0x7F) = true ∧ Instr.wellFormed (.wrIodirA 0xFF) = true ∧
    Instr.wellFormed (.evZ 15) = true ∧ Instr.wellFormed .rdGpioB = true := by decide

/-- R54: the nineteen reads. -/
theorem test_words_reads : ∀ iw ∈ [(Instr.rdIodirA, 0x10000), (.rdIodirB, 0x10100), (.rdGpintenA, 0x10400),
    (.rdGpintenB, 0x10500), (.rdDefvalA, 0x10600), (.rdDefvalB, 0x10700), (.rdIntconA, 0x10800), (.rdIntconB, 0x10900),
    (.rdIocon, 0x10A00), (.rdGppuA, 0x10C00), (.rdGppuB, 0x10D00), (.rdIntfA, 0x10E00), (.rdIntfB, 0x10F00),
    (.rdIntcapA, 0x11000), (.rdIntcapB, 0x11100), (.rdGpioA, 0x11200), (.rdGpioB, 0x11300), (.rdOlatA, 0x11400),
    (.rdOlatB, 0x11500)], decodeTableWord 24 iw.2 = some iw.1 := by decide

/-- R54: the fifteen writes. -/
theorem test_words_writes : ∀ iw ∈ [(Instr.wrIodirA 0xFF, 0x000FF), (.wrIodirB 0x7F, 0x0017F), (.wrGpintenA 0x01, 0x00401),
    (.wrGpintenB 0xA5, 0x005A5), (.wrDefvalA 0x08, 0x00608), (.wrDefvalB 0x04, 0x00704), (.wrIntconA 0x08, 0x00808),
    (.wrIntconB 0x00, 0x00900), (.wrIocon 0x7F, 0x00A7F), (.wrGppuA 0x80, 0x00C80), (.wrGppuB 0x7F, 0x00D7F),
    (.wrIntfA 0x00, 0x00E00), (.wrIntfB 0xFE, 0x00FFE), (.wrOlatA 0xF1, 0x014F1), (.wrOlatB 0x83, 0x01583)],
    decodeTableWord 24 iw.2 = some iw.1 := by decide

/-- R54, L2-1: the three events. -/
theorem test_words_events : ∀ iw ∈ [(Instr.evD0 0, 0x00), (.evD0 12, 0x0C), (.evD1 15, 0x1F), (.evD1 3, 0x13), (.evZ 3, 0x23),
    (.evZ 0, 0x20)], decodeTableWord 8 iw.2 = some iw.1 := by decide

/-- R49, R50, R54: one word of each family bit by bit: `r aaaaaaaa dddddddd` and `00 vv pppp`. -/
theorem test_words_bitwise : decodeTableWord 24 0b10000110100000000 = some .rdGppuB ∧
    decodeTableWord 24 0b00001010010000001 = some (.wrOlatA 0x81) ∧
    decodeTableWord 24 0b00000101001000010 = some (.wrIocon 0x42) ∧
    decodeTableWord 24 0b10000111100000000 = some .rdIntfB ∧ decodeTableWord 24 0b00000100000001000 = some (.wrIntconA 0x08) ∧
    decodeTableWord 8 0b00011001 = some (.evD1 9) := by decide

/-- L2-1: the words the decoder refuses. -/
theorem test_decoder_refuses : ∀ wr ∈ [((0x10B00 : BitVec 17), RefuseReason.unmappedRegister 0x0B),
    (0x00200, .unmappedRegister 0x02), (0x10300, .unmappedRegister 0x03), (0x11600, .unmappedRegister 0x16),
    (0x1FF00, .unmappedRegister 0xFF), (0x10001, .reservedField 0x10001), (0x01200, .writeToReadOnly 0x12),
    (0x01100, .writeToReadOnly 0x11)], decode RegMap.vendor (.tx wr.1) = .refuse wr.2 := by decide

/-- L2-1: the events the decoder refuses. -/
theorem test_decoder_refuses_events : decode RegMap.vendor (.ev 0x30) = .refuse (.reservedField 0x30) ∧
    decode RegMap.vendor (.ev 0x40) = .refuse (.reservedField 0x40) := by decide

/-- R139: an unmapped address is found before the data of a read, and that before a write to a read-only register. -/
theorem test_decoder_order : decode RegMap.vendor (.tx 0x10201) = .refuse (.unmappedRegister 0x02) ∧
    decode RegMap.vendor (.tx 0x112FF) = .refuse (.reservedField 0x112FF) := by decide

/-- R58: the assembly of one instruction of each kind. -/
theorem test_assembly : assembly .rdGpioA = "RD GPIOA" ∧ assembly (.wrIodirA 0xFE) = "WR IODIRA, 0xFE" ∧
    assembly (.evZ 3) = "EV.Z 3" ∧ assembly (.evD1 12) = "EV.D1 12" ∧ threadLabel 2 = "T2:" := by decide

/-- D1: the default map is injective. -/
theorem test_map_injective : RegMap.vendor.injective = true := by decide

/-! ### Operands -/

/-- L1-10: bank and bit of a pin. -/
theorem test_pin_bank_bit : [0, 7, 8, 9, 15].map (fun p => (bankOf p, bitOf p)) =
    [(.bankA, 0), (.bankA, 7), (.bankB, 0), (.bankB, 1), (.bankB, 7)] := by decide

/-- L1-4: the 16-bit view. -/
theorem test_view16 : view16 ⟨0x01, 0x00⟩ = 0x0001 ∧ view16 ⟨0x00, 0x01⟩ = 0x0100 ∧ view16 ⟨0x80, 0x01⟩ = 0x0180 := by decide

/-- R9: `set`, `clr`, `put`. -/
theorem test_set_clr_put : setBit 0x81 1 = 0x83 ∧ clrBit 0x83 1 = 0x81 ∧ putBit 0xFF 7 false = 0x7F := by decide

/-! ### Reset -/

/-- R148: the reset values. -/
theorem test_reset : State.reset.iodir = ⟨0xFF, 0xFF⟩ ∧ State.reset.gppu = ⟨0, 0⟩ ∧ State.reset.iocon = 0 ∧
    State.reset.intf = ⟨0, 0⟩ ∧ State.reset.refused = false ∧ State.reset.handle = .closed := by decide

/-- R149: at reset a driven pin has the driven level, and no level is a change. -/
theorem test_powerOn : (powerOn s0.params (Vector.replicate 16 .d1)).lvl = ⟨0xFF, 0xFF⟩ ∧
    (powerOn s0.params (Vector.replicate 16 .d1)).intf = ⟨0, 0⟩ := by decide

/-! ### Reads and writes of the pins' registers -/

/-- R61: from S0. -/
theorem test_rdIodirA : look (exec .rdIodirA s0) (fun t => t.reply) = some (.value 0xFF) := by
  decide

/-- L2-2. -/
theorem test_rdIodirB : look (exec .rdIodirB s0) (fun t => t.reply) = some (.value 0xFF) := by
  decide

/-- R62: from S0 pin 0 becomes an output at 0. -/
theorem test_wrIodirA : look (exec (.wrIodirA 0xFE) s0) (fun t => (t.iodir, t.lvl, t.intf)) = some (⟨0xFE, 0xFF⟩, ⟨0, 0⟩, ⟨0, 0⟩) := by
  decide

/-- P2 step 3: a released pin that becomes an output takes its latch bit. -/
theorem test_wrIodirB : look (exec (.wrIodirB 0xFD) { s0 with ext := s0.ext.set 9 .z, lvl := ⟨0, 0x02⟩ }) (fun t => (t.iodir, t.lvl)) =
      some (⟨0xFF, 0xFD⟩, ⟨0, 0⟩) := by
  decide

/-- L2-10: the stored byte of each bank. -/
theorem test_rdGppu : look (exec .rdGppuA { s0 with gppu := ⟨0x01, 0xFF⟩ }) (fun t => t.reply) = some (.value 0x01) ∧
      look (exec .rdGppuB { s0 with gppu := ⟨0x01, 0xFF⟩ }) (fun t => t.reply) = some (.value 0xFF) := by
  decide

/-- R66, R96: a pull-up raises a released input, and re-resolves no other pin. -/
theorem test_wrGppuA : look (exec (.wrGppuA 0x08) { s0 with ext := s0.ext.set 3 .z }) (fun t => (t.gppu, t.lvl)) = some (⟨0x08, 0⟩, ⟨0x08, 0⟩) := by
  decide

/-- L2-10, R68. -/
theorem test_wrGppuB : look (exec (.wrGppuB 0x7F) { s0 with gppu := ⟨0, 0xFF⟩ }) (fun t => (t.gppu, t.lvl)) = some (⟨0, 0x7F⟩, ⟨0, 0⟩) := by
  decide

/-- L2-10, R120: the latch, not the level. -/
theorem test_rdOlat : look (exec .rdOlatA { s0 with olat := ⟨0xF0, 0x81⟩ }) (fun t => t.reply) = some (.value 0xF0) ∧
      look (exec .rdOlatB { s0 with olat := ⟨0xF0, 0x81⟩ }) (fun t => t.reply) = some (.value 0x81) := by
  decide

/-- L2-2: no pin changes where all are inputs. -/
theorem test_wrOlatA : look (exec (.wrOlatA 0xFF) s0) (fun t => (t.olat, t.lvl)) = some (⟨0xFF, 0⟩, ⟨0, 0⟩) := by
  decide

/-- P2 step 6: the latch drives a released output. -/
theorem test_wrOlatB : look (exec (.wrOlatB 0x02) { s0 with iodir := ⟨0xFF, 0xFD⟩, ext := s0.ext.set 9 .z }) (fun t => (t.olat, t.lvl)) =
      some (⟨0, 0x02⟩, ⟨0, 0x02⟩) := by
  decide

/-- L2-5, last line: an output pin triggers if and only if `IOC_ON_OUTPUTS`. -/
theorem test_wrOlat_output_triggers : [true, false].map (fun c => look (exec (.wrOlatA 0x01) { s0 with
      iodir := ⟨0xFE, 0xFF⟩, gpinten := ⟨0x01, 0⟩, ext := s0.ext.set 0 .z, params := { s0.params with iocOnOutputs := c } })
      (fun t => t.intf.a)) = [some 0x01, some 0x00] := by
  decide

/-- L2-7: the levels, and the bank's flags cleared. -/
theorem test_rdGpioA : look (exec .rdGpioA { s0 with intf := ⟨0x05, 0x80⟩, lvl := ⟨0x0C, 0⟩ }) (fun t => (t.reply, t.intf)) =
      some (.value 0x0C, ⟨0x00, 0x80⟩) := by
  decide

/-- L2-7, L2-10. -/
theorem test_rdGpioB : look (exec .rdGpioB { s0 with intf := ⟨0x05, 0x80⟩, lvl := ⟨0, 0x80⟩ }) (fun t => (t.reply, t.intf)) =
      some (.value 0x80, ⟨0x05, 0x00⟩) := by
  decide

/-! ### The interrupt logic's registers -/

/-- R73, R75: the stored byte of each bank. -/
theorem test_rdGpinten : look (exec .rdGpintenA { s0 with gpinten := ⟨0x08, 0xA5⟩ }) (fun t => t.reply) = some (.value 0x08) ∧
      look (exec .rdGpintenB { s0 with gpinten := ⟨0x08, 0xA5⟩ }) (fun t => t.reply) = some (.value 0xA5) := by
  decide

/-- R77, R79: the stored byte of each bank. -/
theorem test_rdIntcon : look (exec .rdIntconA { s0 with intcon := ⟨0x08, 0xA5⟩ }) (fun t => t.reply) = some (.value 0x08) ∧
      look (exec .rdIntconB { s0 with intcon := ⟨0x08, 0xA5⟩ }) (fun t => t.reply) = some (.value 0xA5) := by
  decide

/-- R81, R83: the stored byte of each bank. -/
theorem test_rdDefval : look (exec .rdDefvalA { s0 with defval := ⟨0x08, 0xA5⟩ }) (fun t => t.reply) = some (.value 0x08) ∧
      look (exec .rdDefvalB { s0 with defval := ⟨0x08, 0xA5⟩ }) (fun t => t.reply) = some (.value 0xA5) := by
  decide

/-- L2-2: stored in its own bank. -/
theorem test_wrGpinten : look (exec (.wrGpintenA 0x08) s0) (fun t => t.gpinten) = some ⟨0x08, 0⟩ ∧
      look (exec (.wrGpintenB 0xA5) s0) (fun t => (t.gpinten, t.intf)) = some (⟨0, 0xA5⟩, ⟨0, 0⟩) := by
  decide

/-- R108: clearing the enable keeps the flag. -/
theorem test_wrGpintenA_keeps : look (exec (.wrGpintenA 0x00) { s0 with gpinten := ⟨0x08, 0⟩, intf := ⟨0x08, 0⟩ }) (fun t => t.intf) = some ⟨0x08, 0⟩ := by
  decide

/-- L2-6, row 1: `level_eval` raises the flag with the level captured. -/
theorem test_wrGpintenA_mismatch : look (exec (.wrGpintenA 0x08) (mismatching { s0 with intcon := ⟨0x08, 0⟩, defval := ⟨0x08, 0⟩, cap := ⟨0x08, 0⟩ }))
      (fun t => (t.intf, t.cap)) = some (⟨0x08, 0⟩, ⟨0x00, 0⟩) := by
  decide

/-- L2-2, L2-10. -/
theorem test_wrIntcon : look (exec (.wrIntconA 0x08) s0) (fun t => t.intcon) = some ⟨0x08, 0⟩ ∧
      look (exec (.wrIntconB 0x04) s0) (fun t => t.intcon) = some ⟨0, 0x04⟩ := by
  decide

/-- L2-10. -/
theorem test_wrDefval : look (exec (.wrDefvalA 0xFB) s0) (fun t => t.defval) = some ⟨0xFB, 0⟩ ∧
      look (exec (.wrDefvalB 0x04) s0) (fun t => t.defval) = some ⟨0, 0x04⟩ := by
  decide

/-- L2-6, row 4: a change of the reference alone raises the flag. -/
theorem test_wrDefvalA_mismatch : look (exec (.wrDefvalA 0x00) (mismatching { s0 with
      lvl := ⟨0x04, 0⟩, gpinten := ⟨0x04, 0⟩, intcon := ⟨0x04, 0⟩, defval := ⟨0x04, 0⟩ })) (fun t => (t.intf, t.cap)) = some (⟨0x04, 0⟩, ⟨0x04, 0⟩) := by
  decide

/-- L2-6, rows 2 and 3: the flag comes back after the acknowledge where the level still differs, and not otherwise. -/
theorem test_rdGpioA_mismatch : [0x00, 0x08].map (fun l => look (exec .rdGpioA (mismatching { s0 with
      lvl := ⟨l, 0⟩, gpinten := ⟨0x08, 0⟩, intcon := ⟨0x08, 0⟩, defval := ⟨0x08, 0⟩, intf := ⟨0x08, 0⟩ })) (fun t => (t.reply, t.intf.a))) =
      [some (.value 0x00, 0x08), some (.value 0x08, 0x00)] := by
  decide

/-- L2-7, C3: a read of the flags leaves them. -/
theorem test_rdIntf : look (exec .rdIntfA { s0 with intf := ⟨0x05, 0x80⟩ }) (fun t => (t.reply, t.intf)) = some (.value 0x05, ⟨0x05, 0x80⟩) ∧
      look (exec .rdIntfB { s0 with intf := ⟨0x05, 0x80⟩ }) (fun t => (t.reply, t.intf)) = some (.value 0x80, ⟨0x05, 0x80⟩) := by
  decide

/-- L2-8, CLEAR_ON_ZERO. -/
theorem test_wrIntfA_clears : [0x00, 0x04, 0xFF].map (fun d => look (exec (.wrIntfA d) { s0 with intf := ⟨0x05, 0⟩ }) (fun t => t.intf.a)) =
      [some 0x00, some 0x04, some 0x05] := by
  decide

/-- L2-8, IGNORED; and a write never sets a flag. -/
theorem test_wrIntfA_ignored : [0x00, 0x04, 0xFF].map (fun d => look (exec (.wrIntfA d) (ignoring { s0 with intf := ⟨0x05, 0⟩ })) (fun t => t.intf.a)) =
      [some 0x05, some 0x05, some 0x05] ∧ look (exec (.wrIntfA 0xFF) s0) (fun t => t.intf.a) = some 0x00 := by
  decide

/-- R90: the other bank is left. -/
theorem test_wrIntfB : look (exec (.wrIntfB 0x00) { s0 with intf := ⟨0x05, 0x80⟩, cap := ⟨1, 0x80⟩ }) (fun t => (t.intf, t.cap)) =
      some (⟨0x05, 0x00⟩, ⟨1, 0x80⟩) := by
  decide

/-- L2-7: `0bxxxxx0x1`, the flagged bits of a capture read, and the acknowledge; the captures stay. -/
theorem test_rdIntcapA : look (exec .rdIntcapA { s0 with intf := ⟨0x05, 0x80⟩, cap := ⟨0x01, 0x80⟩ })
    (fun t => (t.intf, t.cap)) = some (⟨0x00, 0x80⟩, ⟨0x01, 0x80⟩) := by
  decide

/-- L2-7: the value of the read above, whatever is drawn. -/
theorem test_rdIntcapA_value : ∃ v : Byte, look (exec .rdIntcapA { s0 with intf := ⟨0x05, 0x80⟩, cap := ⟨0x01, 0x80⟩ })
    (fun t => t.reply) = some (.value v) ∧ v.getLsbD 0 = true ∧ v.getLsbD 2 = false := by
  refine ⟨((0x05 &&& 0x01) ||| (~~~0x05 &&& Config.freeByte 0)), rfl, ?_⟩
  generalize Config.freeByte 0 = x
  revert x
  decide

/-- R92, L2-10: `0b1xxxxxxx`. -/
theorem test_rdIntcapB_value : ∃ v : Byte, look (exec .rdIntcapB { s0 with intf := ⟨0x05, 0x80⟩, cap := ⟨0x01, 0x80⟩ })
    (fun t => (t.reply, t.intf)) = some (.value v, ⟨0x05, 0x00⟩) ∧ v.getLsbD 7 = true := by
  refine ⟨((0x80 &&& 0x80) ||| (~~~0x80 &&& Config.freeByte 0)), rfl, ?_⟩
  generalize Config.freeByte 0 = x
  revert x
  decide

/-- L2-3: `0x7E` or `0x7F` reads back. -/
theorem test_rdIocon : ∃ v : Byte, look (exec .rdIocon { s0 with iocon := 0x7E }) (fun t => (t.reply, t.iocon)) =
    some (.value v, 0x7E) ∧ (v = 0x7E ∨ v = 0x7F) := by
  refine ⟨((0x7E &&& 0xFE) ||| (BitVec.ofBool (Config.freeBit 0)).setWidth 8), rfl, ?_⟩
  cases Config.freeBit 0 <;> decide

/-- L2-1, L2-3: bits 6 to 1 stored. -/
theorem test_wrIocon : [0x7F, 0x01, 0x42].map (fun d => look (exec (.wrIocon d) s0) (fun t => t.iocon)) = [some 0x7E, some 0x00, some 0x42] := by
  decide

/-- L2-3: bit 7 refused, the register stays. -/
theorem test_wrIocon_refused : look (exec (.wrIocon 0xC4) { s0 with iocon := 0x44 }) (fun t => (t.iocon, t.refused, t.reply)) =
      some (0x44, true, .refused (.reservedConfig 0xC4)) := by
  decide

/-! ### Pins and flags -/

/-- L2-4: the rows of the resolution table that are no draw (direction, latch, pull-up, drive, level). -/
theorem test_resolution : ∀ r ∈ [(false, false, true, Drive.z, false), (false, true, false, .z, true), (false, false, false, .d0, false),
    (false, true, true, .d1, true), (true, true, true, .d0, false), (true, false, false, .d1, true), (true, false, true, .z, true)],
    determined 9 { s0 with iodir := putPin s0.iodir 9 r.1, olat := putPin s0.olat 9 r.2.1, gppu := putPin s0.gppu 9 r.2.2.1,
                           ext := s0.ext.set 9 r.2.2.2.1 } = some r.2.2.2.2 := by
  decide

/-- L2-4: the rows that are a draw. -/
theorem test_resolution_draws : ∀ r ∈ [(false, false, true, Drive.d1), (false, true, false, .d0), (true, true, false, .z)],
    determined 9 { s0 with iodir := putPin s0.iodir 9 r.1, olat := putPin s0.olat 9 r.2.1, gppu := putPin s0.gppu 9 r.2.2.1,
                           ext := s0.ext.set 9 r.2.2.2 } = none := by
  decide

/-- Pin 3 enabled, with these bytes in the interrupt registers of bank A, at level `l`. -/
def pin3 (ic dv fl cp l : Byte) : State :=
  { s0 with gpinten := ⟨0x08, 0⟩, intcon := ⟨ic, 0⟩, defval := ⟨dv, 0⟩, intf := ⟨fl, 0⟩, cap := ⟨cp, 0⟩, lvl := ⟨l, 0⟩ }

/-- L2-5: the flag and the capture after a rise, in the four kinds of row. -/
theorem test_evD1_rows : look (exec (.evD1 3) (pin3 0x00 0x00 0x00 0x00 0x00)) (fun t => (t.intf.a, t.cap.a)) = some (0x08, 0x08) ∧
    look (exec (.evD1 3) (pin3 0x08 0x08 0x00 0x00 0x00)) (fun t => (t.intf.a, t.cap.a)) = some (0x08, 0x08) ∧
    look (exec (.evD1 3) (pin3 0x08 0x00 0x00 0x00 0x00)) (fun t => (t.intf.a, t.cap.a)) = some (0x00, 0x00) ∧
    look (exec (.evD1 3) (pin3 0x00 0x00 0x08 0x00 0x00)) (fun t => (t.intf.a, t.cap.a)) = some (0x08, 0x00) :=
  ⟨by decide, by decide, by decide, by decide⟩

/-- L2-5: the flag and the capture after a fall, the capture bit set before. -/
theorem test_evD0_rows : look (exec (.evD0 3) (pin3 0x00 0x08 0x00 0x08 0x08)) (fun t => (t.intf.a, t.cap.a)) = some (0x08, 0x00) ∧
    look (exec (.evD0 3) (pin3 0x08 0x08 0x00 0x08 0x08)) (fun t => (t.intf.a, t.cap.a)) = some (0x00, 0x08) ∧
    look (exec (.evD0 3) (pin3 0x08 0x00 0x00 0x08 0x08)) (fun t => (t.intf.a, t.cap.a)) = some (0x08, 0x00) :=
  ⟨by decide, by decide, by decide⟩

/-- L2-5: a pin that is not enabled, and a drive that changes nothing, set no flag. -/
theorem test_evD1_disabled : look (exec (.evD1 3) s0) (fun t => (t.intf.a, t.lvl.a)) = some (0, 0x08) ∧
      look (exec (.evD1 3) { s0 with gpinten := ⟨0x08, 0⟩, intcon := ⟨0x08, 0⟩, defval := ⟨0x08, 0⟩, lvl := ⟨0x08, 0⟩ })
      (fun t => t.intf.a) = some 0 := by
  decide

/-- P4 step 8: a second trigger of a flagged pin keeps the capture. -/
theorem test_evD0_keeps_capture : look (exec (.evD0 12) { s0 with
      gpinten := ⟨0, 0x10⟩, lvl := ⟨0, 0x10⟩, ext := s0.ext.set 12 .d1, intf := ⟨0, 0x10⟩, cap := ⟨0, 0x10⟩ }) (fun t => (t.lvl, t.intf, t.cap)) = some (⟨0, 0⟩, ⟨0, 0x10⟩, ⟨0, 0x10⟩) := by
  decide

/-- R100, P1 step 11: a released pin with a pull-up rises, and triggers. -/
theorem test_evZ_pullup : look (exec (.evZ 3) { s0 with gppu := ⟨0x08, 0⟩, intcon := ⟨0x08, 0⟩, defval := ⟨0x08, 0⟩, gpinten := ⟨0x08, 0⟩ })
      (fun t => (t.lvl, t.intf, t.cap)) = some (⟨0x08, 0⟩, ⟨0x08, 0⟩, ⟨0x08, 0⟩) := by
  decide

/-- R100: a released output takes its latch bit. -/
theorem test_evZ_output : look (exec (.evZ 15) { s0 with iodir := ⟨0xFF, 0x7F⟩, olat := ⟨0, 0x80⟩ }) (fun t => (t.lvl, t.ext.get 15)) =
      some (⟨0, 0x80⟩, .z) := by
  decide

/-- L2-9: the interrupt outputs, for flags A, flags B and the control byte. -/
theorem test_interrupt_outputs : ∀ r ∈ [((0, 0, 0x00), (Drive.d1, Drive.d1)), ((0, 0, 0x02), (.d0, .d0)), ((4, 0, 0x00), (.d0, .d1)),
    ((4, 0, 0x02), (.d1, .d0)), ((4, 0, 0x42), (.d1, .d1)), ((0, 4, 0x40), (.d0, .d0)), ((4, 0, 0x06), (.d0, .z)),
    ((0, 0, 0x44), (.z, .z)), (((0 : Byte), (4 : Byte), (0x46 : Byte)), (.d0, .d0))],
    (intDrive .bankA { s0 with intf := ⟨r.1.1, r.1.2.1⟩, iocon := r.1.2.2 },
      intDrive .bankB { s0 with intf := ⟨r.1.1, r.1.2.1⟩, iocon := r.1.2.2 }) = r.2 := by
  decide

/-! ### Failures and refusals -/

/-- R135: a failed read of a stored register changes nothing. -/
theorem test_failed_read : look (exec .rdIodirA { s0 with fate := .fails }) (fun t => (t.reply, t.iodir, t.draws)) = some (.failed, ⟨0xFF, 0xFF⟩, 0) := by
  decide

/-- R135: a failed write took full effect or none. -/
theorem test_failed_write : ∃ x : Byte, look (exec (.wrGppuA 0x08) { s0 with fate := .fails })
    (fun t => (t.gppu.a, t.reply)) = some (x, .failed) ∧ (x = 0x00 ∨ x = 0x08) := by
  refine ⟨_, rfl, ?_⟩
  cases h : (drawBit { s0 with fate := .fails }).1 <;> simp only [failOrReach, h] <;> decide

/-- R55, R134: refused, no register changed. -/
theorem test_step_refuses : look (step { s0 with agenda := [.tx 0x00255 .completes] }) (fun t => (t.refused, t.reply, t.iodir)) =
      some (true, .refused (.unmappedRegister 0x02), ⟨0xFF, 0xFF⟩) := by
  decide

/-- R39. -/
theorem test_step_burst : look (step { s0 with agenda := [.burst 0x12 0] }) (fun t => (t.refused, t.reply)) = some (true, .refused .multiByteTransfer) := by
  decide

/-- P4 step 7: the word 0x1C. -/
theorem test_step_event : look (step { s0 with gpinten := ⟨0, 0x10⟩, agenda := [.event 0x1C] }) (fun t => (t.lvl, t.intf, t.cap, t.agenda)) =
      some (⟨0, 0x10⟩, ⟨0, 0x10⟩, ⟨0, 0x10⟩, []) := by
  decide

/-- P2 step 3: the word 0x001FD as the next instruction after reset. -/
theorem test_step_withFetchWord : look (step (State.reset.withFetchWord 24 0x001FD)) (fun t => t.iodir) = some ⟨0xFF, 0xFD⟩ := by
  decide

/-! ### The driver's operations, one move at a time (L2-10, L1-3) -/

/-- R117. -/
theorem test_open_words : (DriverOp.openDriver 0x20 "bus").next [] = .issue (.wrIodirA 0xFF) ∧
    (DriverOp.openDriver 0x20 "bus").next [0xFF] = .issue (.wrIodirB 0xFF) := by
  decide

/-- L2-10: `setPinMode(15, INPUT)`, `(8, OUTPUT)`, `(7, INPUT_WITH_PULLUP)`. -/
theorem test_setPinMode_words : (DriverOp.setPinMode 15 .input).next [0x00, 0xFF] = .issue (.wrIodirB 0x80) ∧
    (DriverOp.setPinMode 15 .input).next [0x00, 0xFF, 0x80] = .issue (.wrGppuB 0x7F) ∧
    (DriverOp.setPinMode 8 .output).next [0xFF, 0x01] = .issue (.wrIodirB 0xFE) ∧
    (DriverOp.setPinMode 7 .inputWithPullup).next [0x00, 0x00, 0x80] = .issue (.wrGppuA 0x80) := by
  decide

/-- L2-10. -/
theorem test_writePin_words : (DriverOp.writePin 0 .high).next [0xF0] = .issue (.wrOlatA 0xF1) ∧
    (DriverOp.writePin 7 .low).next [0xFF] = .issue (.wrOlatA 0x7F) ∧
    (DriverOp.writePin 9 .high).next [] = .issue .rdOlatB := by
  decide

/-- L2-10. -/
theorem test_readPin_results : (DriverOp.readPin 15).next [0x80] = .done (.reading .high) ∧
    (DriverOp.readPin 14).next [0x80] = .done (.reading .low) ∧
    (DriverOp.readPin 15).next [] = .issue .rdGpioB := by
  decide

/-- L2-10. -/
theorem test_setInterruptEnabled_words : (DriverOp.setInterruptEnabled 0 false).next [0xFF] = .issue (.wrGpintenA 0xFE) ∧
    (DriverOp.setInterruptEnabled 12 true).next [0x00] = .issue (.wrGpintenB 0x10) := by
  decide

/-- L2-10, L1-7, L1-9: level, open-drain, mirror, the byte read, the byte written. -/
theorem test_configure_words : ∀ r ∈ [((Level.high, false, false), 0x00, 0x02), ((.low, false, false), 0x00, 0x00),
    ((.high, true, false), 0x00, 0x04), ((.low, true, false), 0x00, 0x04), ((.high, false, true), 0x00, 0x42),
    ((.low, false, true), 0x00, 0x40), ((.high, true, true), 0x00, 0x44), ((.high, false, false), 0x30, 0x32),
    ((.low, false, false), (0x46 : Byte), (0x00 : Byte))],
    (DriverOp.configureInterruptOutput ⟨r.1.1, r.1.2.1, r.1.2.2⟩).next [r.2.1] = .issue (.wrIocon r.2.2) := by
  decide

/-- L2-10, L1-6. -/
theorem test_setInterruptTriggerMode_words : (DriverOp.setInterruptTriggerMode 2 .onFallingEdge).next [0x00, 0xFF] = .issue (.wrIntconA 0x04) ∧
    (DriverOp.setInterruptTriggerMode 2 .onFallingEdge).next [0x00, 0xFF, 0x04] = .issue (.wrDefvalA 0xFB) ∧
    (DriverOp.setInterruptTriggerMode 2 .onChange).next [0x04, 0x04, 0x00] = .issue (.wrDefvalA 0x04) ∧
    (DriverOp.setInterruptTriggerMode 10 .onRisingEdge).next [0x00, 0x00, 0x04] = .issue (.wrDefvalB 0x04) := by
  decide

/-- L2-10, L1-4, L1-5. -/
theorem test_flags_results : (DriverOp.getInterruptFlags true).next [0x80, 0x01] = .issue (.wrIntfA 0) ∧
    (DriverOp.getInterruptFlags true).next [0x80, 0x01, 0, 0] = .done (.flags 0x0180) ∧
    (DriverOp.getInterruptPins false).next [0x05, 0x00] = .done (.pins [0, 2]) ∧
    (DriverOp.getInterruptPins false).next [0x01, 0x80] = .done (.pins [0, 15]) ∧
    (DriverOp.isInterruptOnPin 8 false).next [0x00, 0x01] = .done (.onPin true) ∧
    (DriverOp.isInterruptOnPin 0 false).next [0x00, 0x01] = .done (.onPin false) := by
  decide

/-- L2-10: three reported pins, two of bank A. -/
theorem test_capture_words : [[], [0], [0, 0], [0, 0, 0]].map (DriverOp.getInterruptCapture true).next =
      [.issue .rdIntfA, .issue .rdIntfB, .issue .rdIntcapA, .issue .rdIntcapB] ∧
    [[], [0x0C], [0x0C, 0x0C], [0x0C, 0x0C, 0x80]].map
      (fun g => (DriverOp.getInterruptCapture true).next ([0x05, 0x80, 0x01, 0x80] ++ g)) =
      [.issue .rdGpioA, .issue .rdGpioA, .issue .rdGpioB, .done (.captures [(0, true), (2, false), (15, true)])] ∧
    (DriverOp.getInterruptCapture false).next [0x05, 0x80, 0x01, 0x80] =
      .done (.captures [(0, true), (2, false), (15, true)]) := by
  decide

/-- R129. -/
theorem test_clearAll_words : [[], [0], [0, 0], [0, 0, 0], [0, 0, 0, 0]].map DriverOp.clearAllInterrupts.next =
      [.issue .rdGpioA, .issue .rdGpioB, .issue (.wrIntfA 0), .issue (.wrIntfB 0), .done .ok] := by
  decide

/-- L2-10. -/
theorem test_toggle_words : (DriverOp.setSlewRateEnabled false).next [0x00] = .issue (.wrIocon 0x10) ∧
    (DriverOp.setSlewRateEnabled true).next [0x10] = .issue (.wrIocon 0x00) ∧
    (DriverOp.setSequentialOperationEnabled false).next [0x00] = .issue (.wrIocon 0x20) := by
  decide

/-- L1-3, for -1 and 16. -/
theorem test_invalid_pins : ∀ p ∈ [(-1 : Int), 16], (DriverOp.setPinMode p .input).pinError = some (.err .invalidPinIndex) ∧
      (DriverOp.readPin p).pinError = some (.reading .error) ∧ (DriverOp.isInterruptOnPin p true).pinError = some (.onPin false) := by
  decide

/-- R113, L2-10: an operation on a closed handle. -/
theorem test_move_begins : look (moveThread 0 (oneThread (.writePin 0 .high) { s0 with handle := .closed })) (fun t => t.threads) =
      some [⟨[], .start, [.err .openFailure]⟩] := by
  decide

/-- P2 step 6: the write of `writePin(9, HIGH)`. -/
theorem test_move_issues : look (moveThread 0 (midway (.writePin 9 .high) [0x00] s0)) (fun t => (t.olat, t.threads)) =
      some (⟨0, 0x02⟩, [⟨[], .start, [.ok]⟩]) := by
  decide

/-- L2-10: the second read of `setPinMode` fails. -/
theorem test_move_aborts : look (moveThread 0 (midway (.setPinMode 0 .output) [0xFF] { s0 with fate := .fails })) (fun t => (t.iodir.a, t.threads)) =
      some (0xFF, [⟨[], .start, [.err .transactionFailure]⟩]) := by
  decide

/-- R118: an early return on an error releases the transport. -/
theorem test_leaveScope_releases : look (step { s0 with threads := [⟨[.readPin 3], .start, [.err .transactionFailure]⟩], agenda := [.leaveScope 0] })
      (fun t => (t.handle, t.threads)) = some (.closed, [⟨[], .start, [.err .transactionFailure]⟩]) := by
  decide

/-- R45, R118: not in the middle of an operation; and an unusable handle stays so. -/
theorem test_leaveScope_midway : look (step { midway (.writePin 9 .high) [0x00] s0 with agenda := [.leaveScope 0] }) (fun t => (t.handle, t.threads)) =
      some (.opened, [⟨[.writePin 9 .high], .running [0x00], []⟩]) ∧
      look (step { oneThread .closeDriver { s0 with handle := .unusable } with agenda := [.leaveScope 0] }) (fun t => t.handle) =
      some .unusable := by
  decide

/-! ### Witnesses: for each statement with hypotheses, a state and operands that meet them -/

/-- D1. -/
theorem witness_DecodeOfEncode : RegMap.vendor.injective = true :=
  by decide

/-- R54. -/
theorem witness_EncodeOfDecode : decode RegMap.vendor (.tx 0x10000) = .instr .rdIodirA ∧ decode RegMap.vendor (.ev 0x1F) = .instr (.evD1 15) :=
  by decide

/-- R55: a read and a write, at the ends of the range of the default map. -/
theorem witness_UnmappedAddressRefused : ∀ w ∈ [(0x10200 : BitVec 17), 0x00355, 0x10B00, 0x01600, 0x1FFFF],
    ∃ s : State, s.agenda = .tx w .completes :: [] ∧ s.params.regmap.lookup (w.extractLsb' 8 8) = none :=
  fun w hw => ⟨{ s0 with agenda := [.tx w .completes] }, rfl, by
    simp only [List.mem_cons, List.not_mem_nil, or_false] at hw
    rcases hw with rfl | rfl | rfl | rfl | rfl <;> decide⟩

/-- R56: a read with data, at the first and the last decoded address. -/
theorem witness_IllegalEncodingsRefused_reads : ∀ wr ∈ [((0x10001 : BitVec 17), Reg.paired .iodir .bankA),
    (0x115FF, .paired .olat .bankB)], ∃ s : State, s.agenda = .tx wr.1 .fails :: [] ∧
    s.params.regmap.lookup (wr.1.extractLsb' 8 8) = some wr.2 ∧ wr.1.getLsbD 16 = true ∧ wr.1.extractLsb' 0 8 ≠ 0 :=
  fun w hw => ⟨{ s0 with agenda := [.tx w.1 .fails] }, rfl, by
    simp only [List.mem_cons, List.not_mem_nil, or_false] at hw
    rcases hw with rfl | rfl <;> decide⟩

/-- R56: a write to each read-only register. -/
theorem witness_IllegalEncodingsRefused_writes : ∀ wkb ∈ [((0x01000 : BitVec 17), Kind.intcap, Bank.bankA),
    (0x01155, .intcap, .bankB), (0x01200, .gpio, .bankA), (0x013FF, .gpio, .bankB)], ∃ s : State,
    s.agenda = .tx wkb.1 .completes :: [] ∧
    s.params.regmap.lookup (wkb.1.extractLsb' 8 8) = some (.paired wkb.2.1 wkb.2.2) ∧ wkb.1.getLsbD 16 = false ∧
    (wkb.2.1 = .gpio ∨ wkb.2.1 = .intcap) :=
  fun w hw => ⟨{ s0 with agenda := [.tx w.1 .completes] }, rfl, by
    simp only [List.mem_cons, List.not_mem_nil, or_false] at hw
    rcases hw with rfl | rfl | rfl | rfl <;> decide⟩

/-- R86: the ends of the refused bytes. -/
theorem witness_IllegalEncodingsRefused_control : ∀ w ∈ [(0x00A80 : BitVec 17), 0x00AFF], ∃ s : State,
    s.agenda = .tx w .completes :: [] ∧ s.params.regmap.lookup (w.extractLsb' 8 8) = some .iocon ∧
    w.getLsbD 16 = false ∧ w.getLsbD 7 = true :=
  fun w hw => ⟨{ s0 with agenda := [.tx w .completes] }, rfl, by
    simp only [List.mem_cons, List.not_mem_nil, or_false] at hw
    rcases hw with rfl | rfl <;> decide⟩

/-- R56: each illegal event, at the ends. -/
theorem witness_IllegalEncodingsRefused_events : ∀ e ∈ [(0x30 : BitVec 8), 0x40, 0x80, 0xFF], ∃ s : State,
    s.agenda = .event e :: [] ∧ (e.extractLsb' 6 2 ≠ 0 ∨ e.extractLsb' 4 2 = 3) :=
  fun e he => ⟨{ s0 with agenda := [.event e] }, rfl, by
    simp only [List.mem_cons, List.not_mem_nil, or_false] at he
    rcases he with rfl | rfl | rfl | rfl <;> decide⟩

/-- R39. -/
theorem witness_IllegalEncodingsRefused_burst : ∃ s : State, s.agenda = .burst 0x12 0 :: [] :=
  ⟨{ s0 with agenda := [.burst 0x12 0] }, rfl⟩

/-- R59: a transaction and an event that decode, and words of the opcode table. -/
theorem witness_StepRunsDecodedWord : ∃ s u : State, s.agenda = .tx 0x000FE .completes :: [] ∧
    decode s.params.regmap (.tx 0x000FE) = .instr (.wrIodirA 0xFE) ∧ u.agenda = .event 0x23 :: [] ∧
    decode u.params.regmap (.ev 0x23) = .instr (.evZ 3) ∧ u.params.regmap = RegMap.vendor ∧
    decodeTableWord 24 0x11500 = some .rdOlatB ∧ decodeTableWord 8 0x1F = some (.evD1 15) :=
  ⟨{ s0 with agenda := [.tx 0x000FE .completes] }, { s0 with agenda := [.event 0x23] }, rfl, by decide, rfl, by decide, rfl,
    by decide, by decide⟩

/-- The hypotheses hold in `S0`. -/
theorem witness_ReadPinRegisters : s0.fate = .completes ∧ (.rdIodirA, 0xFF) ∈ pinRegisterReads s0 ∧ (.rdOlatB, 0x00) ∈ pinRegisterReads s0 :=
  by decide

/-- The hypotheses hold in `S0`. -/
theorem witness_ReadInterruptRegisters : s0.fate = .completes ∧ (.rdGpintenA, 0x00) ∈ interruptRegisterReads s0 ∧
    (.rdIntfB, 0x00) ∈ interruptRegisterReads s0 :=
  by decide

/-- The one hypothesis of ReadControlRegister, ReadInputRegister and WriteInterruptSetting. -/
theorem witness_completes : s0.fate = .completes :=
  by decide

/-- A flagged pin of the bank. -/
theorem witness_ReadCaptureRegister : ∃ s : State, s.fate = .completes ∧ bankOf 15 = .bankB ∧ flag 15 s = true :=
  ⟨{ s0 with intf := ⟨0, 0x80⟩ }, by decide⟩

/-- A pin whose level the write fixes, and one it leaves. -/
theorem witness_WriteDirectionRegister : s0.fate = .completes ∧ bankOf 0 = .bankA ∧ pinBit s0.iodir 0 ≠ pinBit (s0.iodir.set .bankA 0xFE) 0 ∧
    pinBit s0.iodir 1 = pinBit (s0.iodir.set .bankA 0xFE) 1 ∧ determined 0 (s0.setIodir .bankA 0xFE) = some false :=
  by decide

/-- Likewise. -/
theorem witness_WritePullUpRegister : s0.fate = .completes ∧ pinBit s0.gppu 3 ≠ pinBit (s0.gppu.set .bankA 0x08) 3 ∧
    determined 3 (s0.setGppu .bankA 0x08) = some false :=
  by decide

/-- Likewise, on a released output. -/
theorem witness_WriteLatchRegister : ∃ s : State, s.fate = .completes ∧ pinBit s.olat 9 ≠ pinBit (s.olat.set .bankB 0x02) 9 ∧
    determined 9 (s.setOlat .bankB 0x02) = some true :=
  ⟨{ s0 with iodir := ⟨0xFF, 0xFD⟩, ext := s0.ext.set 9 .z }, by decide⟩

/-- Both clauses, at the ends of their ranges. -/
theorem witness_WriteControlRegister : s0.fate = .completes ∧ BitVec.getLsbD (0x00 : Byte) 7 = false ∧ BitVec.getLsbD (0x7F : Byte) 7 = false ∧
    BitVec.getLsbD (0x80 : Byte) 7 = true ∧ BitVec.getLsbD (0xFF : Byte) 7 = true :=
  by decide

/-- Both readings of the write, with the default trigger sense. -/
theorem witness_WriteFlagRegister : s0.fate = .completes ∧ s0.params.intfWrite = .clearOnZero ∧ (ignoring s0).fate = .completes ∧
    (ignoring s0).params.intfWrite = .ignored ∧ s0.params.triggerSense = .edgeToRef :=
  by decide

/-- R96: a state and a pin for each row of the rule. -/
theorem witness_ResolutionRows : ∀ r ∈ [(false, false, false, Drive.z), (false, true, false, .d1), (false, true, false, .d0),
    (true, false, false, .d0), (true, false, false, .d1), (true, false, true, .z), (true, false, false, .z)],
    ∃ s : State, pinBit s.iodir 15 = r.1 ∧ pinBit s.olat 15 = r.2.1 ∧ pinBit s.gppu 15 = r.2.2.1 ∧ s.ext.get 15 = r.2.2.2 :=
  fun r hr => ⟨{ s0 with iodir := putPin s0.iodir 15 r.1, olat := putPin s0.olat 15 r.2.1, gppu := putPin s0.gppu 15 r.2.2.1,
                         ext := s0.ext.set 15 r.2.2.2 }, by
    simp only [List.mem_cons, List.not_mem_nil, or_false] at hr
    rcases hr with rfl | rfl | rfl | rfl | rfl | rfl | rfl <;> decide⟩

/-- R97: an event, and a write, that change a level. -/
theorem witness_LevelChangesOnlyAtResolution : (∃ t, exec (.evD1 3) s0 = .next t ∧ level 3 t ≠ level 3 s0) ∧
    ∃ s t : State, exec (.wrGppuA 0x08) s = .next t ∧ level 3 t ≠ level 3 s :=
  ⟨⟨_, rfl, by decide⟩, ⟨{ s0 with ext := s0.ext.set 3 .z }, _, rfl, by decide⟩⟩

/-- R31. -/
theorem witness_DriveWrittenOnlyByEvents : ∃ t, exec (.evZ 15) s0 = .next t ∧ t.ext.get 15 ≠ s0.ext.get 15 :=
  ⟨_, rfl, by decide⟩

/-- R102: an enabled input pin, low and high. -/
theorem witness_TriggerModesUnderEdge : ∀ l ∈ [(0x00 : Byte), 0x80], ∃ s : State, s.params.triggerSense = .edgeToRef ∧
    pinBit s.iodir 15 = true ∧ pinBit s.gpinten 15 = true ∧ flag 15 s = false ∧ level 15 s = (l == 0x80) :=
  fun l hl => ⟨{ s0 with gpinten := ⟨0, 0x80⟩, lvl := ⟨0, l⟩ }, by
    simp only [List.mem_cons, List.not_mem_nil, or_false] at hl
    rcases hl with rfl | rfl <;> decide⟩

/-- R101: a flag that rises at an edge, and one that `level_eval` raises. -/
theorem witness_RisingFlagIsEligible : (∃ s t : State, exec (.evD1 3) s = .next t ∧ flag 3 s = false ∧ flag 3 t = true) ∧
    ∃ s t : State, exec .rdIodirA s = .next t ∧ flag 3 s = false ∧ flag 3 t = true :=
  ⟨⟨{ s0 with gpinten := ⟨0x08, 0⟩ }, _, rfl, by decide⟩,
    ⟨mismatching { s0 with gpinten := ⟨0x08, 0⟩, intcon := ⟨0x08, 0⟩, defval := ⟨0x08, 0⟩ }, _, rfl, by decide⟩⟩

/-- R108: a flag that stays, and flags that each of the three ways clears. -/
theorem witness_FlagStaysUntilAcknowledged : ∃ s : State, (flag 3 s = true) ∧ (∃ t, exec .rdIntfA s = .next t) ∧
    (∃ t, exec .rdGpioA s = .next t ∧ flag 3 t = false) ∧ (∃ t, exec .rdIntcapA s = .next t ∧ flag 3 t = false) ∧
    ∃ t, exec (.wrIntfA 0xF7) s = .next t ∧ flag 3 t = false :=
  ⟨{ s0 with intf := ⟨0x08, 0⟩ }, by decide, ⟨_, rfl⟩, ⟨_, rfl, by decide⟩, ⟨_, rfl, by decide⟩, ⟨_, rfl, by decide⟩⟩

/-- R105: one write that raises two flags. -/
theorem witness_OneBankRaisedPerStep : ∃ s t : State, s.params.triggerSense = .edgeToRef ∧ exec (.wrGppuA 0x81) s = .next t ∧
    flag 0 s = false ∧ flag 0 t = true ∧ flag 7 s = false ∧ flag 7 t = true :=
  ⟨{ s0 with gpinten := ⟨0xFF, 0⟩, ext := (s0.ext.set 0 .z).set 7 .z }, _, rfl, rfl, by decide⟩

/-- The hypotheses hold in `S0`. -/
theorem witness_LevelEvalBitwise : (mismatching s0).params.triggerSense = .levelMismatch :=
  by decide

/-- R109, R110: each setting of MIRROR and ODR, active and inactive. -/
theorem witness_InterruptOutputDrive : ∀ r ∈ [((0x00 : Byte), (4 : Byte)), (0x00, 0), (0x44, 4), (0x44, 0), (0x06, 4)],
    ∃ s : State, s.iocon = r.1 ∧ s.iocon.getLsbD 6 = (r.1 == 0x44) ∧ s.iocon.getLsbD 2 = (r.1 != 0x00) ∧
      intActive .bankA s = (r.2 == 4) :=
  fun r hr => ⟨{ s0 with iocon := r.1, intf := ⟨r.2, 0⟩ }, by
    simp only [List.mem_cons, List.not_mem_nil, or_false] at hr
    rcases hr with rfl | rfl | rfl | rfl | rfl <;> decide⟩

/-- The hypotheses hold in `S0`. -/
theorem witness_AcknowledgeDeassertsOutput : s0.fate = .completes ∧ s0.params.triggerSense = .edgeToRef ∧ Bank.bankB ≠ .bankA ∧ (Kind.gpio = .gpio ∨ Kind.gpio = .intcap) :=
  by decide

/-- R32. -/
theorem witness_RefusedNeverCleared : (∃ s t : State, step s = .next t ∧ s.refused = true) ∧
    ∃ t, refuse .multiByteTransfer s0 = .next t :=
  ⟨⟨{ s0 with refused := true }, _, rfl, rfl⟩, _, rfl⟩

/-- R134. -/
theorem witness_RefusalChangesNoRegister : ∃ t, exec (.wrIocon 0x80) s0 = .next t ∧ s0.refused = false ∧ t.refused = true :=
  ⟨_, rfl, rfl, rfl⟩

/-- R135: each of its clauses. -/
theorem witness_FailedTransaction : ∃ s : State, s.fate = .fails ∧ .rdIocon ∈ plainReads ∧ .rdGpioB ∈ ackReads ∧
    .wrIocon 0x7F ∈ writes 0x7F ∧ Instr.WellFormed (.wrIocon 0x7F) ∧ Instr.WellFormed .rdGpioB :=
  ⟨{ s0 with fate := .fails }, by decide⟩

/-- R97: the clause about a fixed level. -/
theorem witness_PinEventResolvesPin : ∃ t, exec (.evD1 15) s0 = .next t ∧ determined 15 t = some true :=
  ⟨_, rfl, by decide⟩

/-- R142: an instruction that completes. -/
theorem witness_ChipIgnoresTheHost : ∃ t, exec (.wrOlatB 0x02) s0 = .next t := ⟨_, rfl⟩

/-- R7: a step. -/
theorem witness_ParametersAreFixed : ∃ s t : State, step s = .next t ∧ s.agenda ≠ [] :=
  ⟨{ s0 with agenda := [.tx 0x00042 .completes] }, _, rfl, by decide⟩

/-- R149: a driven pin. -/
theorem witness_PowerOnState : determined 15 (powerOn s0.params (Vector.replicate 16 .d1)) = some true := by decide

/-- A consistent state other than reset, and a step from it. -/
theorem witness_StepKeepsConsistent : ∃ s t : State, Consistent s ∧ step s = .next t ∧ s.agenda ≠ [] ∧ s.iocon = 0x42 :=
  ⟨{ s0 with iocon := 0x42, agenda := [.tx 0x000FE .completes] }, _, by decide, rfl, by decide, rfl⟩

/-- A thread in the middle of an operation, and its next move. -/
theorem witness_ThreadsStayBetweenMoves : ∃ s t : State, ThreadsWait s ∧ step s = .next t ∧ s.threads ≠ [] ∧ s.agenda ≠ [] := by
  refine ⟨{ midway (.writePin 9 .high) [0x00] s0 with agenda := [.move 0 .completes] }, _, ?_, rfl, by decide, by decide⟩
  intro x hx
  simp only [midway, List.mem_singleton] at hx
  subst hx
  exact ⟨.writePin 9 .high, [], .wrOlatB 0x02, rfl, by decide⟩

/-- R123: a thread that has read the control register. -/
theorem witness_DriverIsNeverRefused : ∃ s t : State, ControlReserved s ∧ (∀ x ∈ s.threads, ControlReadClear x) ∧
    serve (.move 0 .completes) s = .next t ∧ s.threads ≠ [] := by
  refine ⟨midway (.setSlewRateEnabled false) [0x01] s0, _, by decide, ?_, rfl, by decide⟩
  intro x hx op rest moved c hp hm hph hc
  simp only [midway, List.mem_singleton] at hx
  subst hx
  injection hph with hph
  subst hph
  simp only [List.mem_singleton] at hc
  subst hc
  decide

/-- R113: on a closed and on an unusable handle. -/
theorem witness_ClosedHandleFailsFast : ∀ h ∈ [Handle.closed, .unusable], ∃ (s : State) (x : Thread), s.threads[0]? = some x ∧
    x.program = .readPin 3 :: [] ∧ x.phase = .start ∧ s.handle ≠ .opened ∧ DriverOp.readPin 3 ≠ .closeDriver ∧
    ∀ a path, DriverOp.readPin 3 ≠ .openDriver a path :=
  fun h hh => ⟨oneThread (.readPin 3) { s0 with handle := h }, _, rfl, rfl, rfl, by
    simp only [List.mem_cons, List.not_mem_nil, or_false] at hh
    rcases hh with rfl | rfl <;> decide, by decide,
    fun _ _ e => by cases e⟩

/-- R114: the indices on both sides of the range. -/
theorem witness_InvalidPinIssuesNothing : ∀ p ∈ [(-1 : Int), 16], ∃ (s : State) (x : Thread), s.threads[0]? = some x ∧
    x.phase = .start ∧ s.handle = .opened ∧ (p < 0 ∨ 15 < p) ∧ x.program = .readPin p :: [] :=
  fun p hp => ⟨oneThread (.readPin p) s0, _, rfl, rfl, rfl, by
    simp only [List.mem_cons, List.not_mem_nil, or_false] at hp
    rcases hp with rfl | rfl <;> decide, rfl⟩

/-- R115, R117: an operation, and `open`, whose transaction fails. -/
theorem witness_FailedTransactionAborts : ∀ om ∈ [(DriverOp.setPinMode 0 .output, [0xFF], Instr.rdGppuA),
    (.openDriver 0x20 "bus", ([] : List Byte), .wrIodirA 0xFF)], ∃ (s t : State) (x : Thread), s.threads[0]? = some x ∧
    x.program = om.1 :: [] ∧ x.phase = .running om.2.1 ∧ om.1.next om.2.1 = .issue om.2.2 ∧ exec om.2.2 s = .next t ∧
    t.reply = .failed := by
  intro om hom
  simp only [List.mem_cons, List.not_mem_nil, or_false] at hom
  rcases hom with rfl | rfl
  · exact ⟨midway (.setPinMode 0 .output) [0xFF] { s0 with fate := .fails }, _, _, rfl, rfl, rfl, by decide, rfl, rfl⟩
  · exact ⟨midway (.openDriver 0x20 "bus") [] { s0 with fate := .fails }, _, _, rfl, rfl, rfl, by decide, rfl, rfl⟩

/-- The hypotheses of SetPinModeEncodes, WritePinKeepsOthers, ReadPinAcknowledgesBank, SetInterruptEnabledOneBit,
ConfigureOutputBits, ControlToggles, SetTriggerModeEncodes, GetInterruptFlags, FlagViews, GetInterruptCapture and
ClearAllInterrupts: each is met by `S0` with any operand. -/
theorem witness_openHandle : s0.handle = .opened ∧ s0.params.triggerSense = .edgeToRef ∧ ControlReserved s0 :=
  by decide

/-- R153: pins 0 and 7 of one bank. -/
theorem witness_LostUpdate : s0.handle = .opened ∧ (0 : Pin) ≠ 7 ∧ bankOf 0 = bankOf 7 :=
  by decide

/-- R118: a thread between operations, and one in the middle of an operation. -/
theorem witness_ScopeEndReleases : (∃ (s : State) (x : Thread), s.agenda = .leaveScope 0 :: [] ∧ s.threads[0]? = some x ∧
    x.phase = .start ∧ s.handle = .opened) ∧ ∃ (s : State) (x : Thread), s.agenda = .leaveScope 0 :: [] ∧
    s.threads[0]? = some x ∧ x.phase = .running [0x00] :=
  ⟨⟨{ oneThread (.readPin 3) s0 with agenda := [.leaveScope 0] }, _, rfl, rfl, rfl, rfl⟩,
    ⟨{ midway (.writePin 9 .high) [0x00] s0 with agenda := [.leaveScope 0] }, _, rfl, rfl, rfl⟩⟩

/-- R157: a rise and a fall in reference mode, a release to the pull-up, and a rise in the other mode. -/
theorem witness_CaptureWindowLosesTrigger : (∃ s u : State, s.handle = .opened ∧ s.params.triggerSense = .edgeToRef ∧
    flag 3 s = false ∧ exec (eventOf .d1 3) s = .next u ∧ flag 3 u = true) ∧
    (∃ s u : State, s.handle = .opened ∧ s.params.triggerSense = .edgeToRef ∧ flag 3 s = false ∧
      exec (eventOf .d0 3) s = .next u ∧ flag 3 u = true) ∧
    (∃ s u : State, s.handle = .opened ∧ s.params.triggerSense = .edgeToRef ∧ flag 3 s = false ∧
      exec (eventOf .z 3) s = .next u ∧ flag 3 u = true) ∧
    ∃ s u : State, s.handle = .opened ∧ s.params.triggerSense = .edgeToRef ∧ flag 12 s = false ∧
      exec (eventOf .d1 12) s = .next u ∧ flag 12 u = true :=
  ⟨⟨pin3 0x08 0x08 0x00 0x00 0x00, _, rfl, rfl, by decide, rfl, by decide⟩,
    ⟨pin3 0x08 0x00 0x00 0x00 0x08, _, rfl, rfl, by decide, rfl, by decide⟩,
    ⟨{ pin3 0x00 0x00 0x00 0x00 0x00 with gppu := ⟨0x08, 0⟩ }, _, rfl, rfl, by decide, rfl, by decide⟩,
    ⟨{ s0 with gpinten := ⟨0, 0x10⟩ }, _, rfl, rfl, by decide, rfl, by decide⟩⟩

end Sys2Proof.Tests
end

/-! SUPPORT. The launch parameters (R7) through an instruction and through the host's side, and so through every step. -/

namespace Sys2Proof.Machine

theorem HostOnly.params {s t : State} (h : HostOnly s t) : t.params = s.params := by
  unfold HostOnly at h
  rw [h]

theorem Reached.params {i : Instr} {s t : State} (h : Reached i s t) : t.params = s.params := by
  obtain ⟨u, hu, rfl⟩ := h
  calc (levelEval u).params = u.params := levelEval_params u
    _ = (update i s).params := hu.same.params
    _ = s.params := update_params i s

/-- R7: no instruction writes a launch parameter, whether it reaches the chip, fails or is refused. -/
theorem exec_params {i : Instr} {s t : State} (h : exec i s = .next t) : t.params = s.params := by
  cases exec_cases h with
  | reached n u r hu ht => simp [ht, hu.params]
  | missed n ht => simp [ht]
  | refused r hi ht => simp [ht]

/-- Settles O35: a step is a change of the host's side, one instruction or one refusal, and each keeps the parameters. -/
theorem parametersAreFixed : Obligations.ParametersAreFixed := by
  intro s t h
  cases step_cases h with
  | host h => exact h.params
  | ran i u v hu hi ht => exact ht.params.trans ((exec_params hi).trans hu.params)
  | refused r u hu ht => simp [ht, hu.params]

end Sys2Proof.Machine

/-! SUPPORT. The 16-bit view of a bank pair (R29). -/

namespace Sys2Proof.Machine

theorem bankOf_of_lt {p : Pin} (h : p.val < 8) : bankOf p = .bankA := if_pos h

theorem bankOf_of_ge {p : Pin} (h : ¬p.val < 8) : bankOf p = .bankB := if_neg h

/-- Settles O40: below bit 8 the view reads bank A at `p`, from bit 8 on bank B at `p - 8`, and both are pin `p`'s bit. -/
theorem logicalViewBits : Obligations.LogicalViewBits := by
  intro x p
  unfold view16 pinBit bitOf
  rw [BitVec.getLsbD_append]
  by_cases hp : p.val < 8
  · rw [if_pos hp, bankOf_of_lt hp, Nat.mod_eq_of_lt hp]
    rfl
  · have hbit : p.val % 8 = p.val - 8 := by omega
    rw [if_neg hp, bankOf_of_ge hp, hbit]
    rfl

end Sys2Proof.Machine

/-! SUPPORT. The drives (R31) and `refused` (R32) through an instruction and through the host's side. -/

namespace Sys2Proof.Machine

open Claims (eventOf)

theorem HostOnly.refused {s t : State} (h : HostOnly s t) : t.refused = s.refused := by
  unfold HostOnly at h
  rw [h]

theorem setExt_get_other (s : State) {p q : Pin} (v : Drive) (h : p ≠ q) : (s.setExt q v).ext.get p = s.ext.get p :=
  Vector.getElem_set_ne q.isLt p.isLt fun e => h (Fin.ext e.symm)

/-- What an instruction that is no event on pin `p` stores leaves that pin's drive as it was. -/
theorem update_ext_get {i : Instr} {p : Pin} (h : ∀ v, i ≠ eventOf v p) (s : State) :
    (update i s).ext.get p = s.ext.get p := by
  cases i with
  | evD0 q => exact setExt_get_other s .d0 fun e => h .d0 (e ▸ rfl)
  | evD1 q => exact setExt_get_other s .d1 fun e => h .d1 (e ▸ rfl)
  | evZ q => exact setExt_get_other s .z fun e => h .z (e ▸ rfl)
  | wrIntfA d | wrIntfB d => simp only [update]; split <;> rfl
  | _ => rfl

theorem update_refused (i : Instr) (s : State) : (update i s).refused = s.refused := by
  cases i with
  | wrIntfA d | wrIntfB d => simp only [update]; split <;> rfl
  | _ => rfl

/-- The drives are those the instruction's own update left: neither resolution nor `level_eval` writes one. -/
theorem Reached.ext {i : Instr} {s t : State} (h : Reached i s t) : t.ext = (update i s).ext := by
  obtain ⟨u, hu, rfl⟩ := h
  exact hu.same.ext

theorem Reached.refused {i : Instr} {s t : State} (h : Reached i s t) : t.refused = s.refused := by
  obtain ⟨u, hu, rfl⟩ := h
  calc (levelEval u).refused = u.refused := levelEval_refused u
    _ = (update i s).refused := by rw [hu.frame]
    _ = s.refused := update_refused i s

/-- R31: an instruction that is no event on pin `p` keeps that pin's drive. -/
theorem exec_ext_get {i : Instr} {s t : State} {p : Pin} (h : exec i s = .next t) (hi : ∀ v, i ≠ eventOf v p) :
    t.ext.get p = s.ext.get p := by
  cases exec_cases h with
  | reached n u r hu ht => simp [ht, hu.ext, update_ext_get hi]
  | missed n ht => simp [ht]
  | refused r hi ht => simp [ht]

/-- R32: no instruction clears `refused`. -/
theorem exec_keeps_refused {i : Instr} {s t : State} (h : exec i s = .next t) (hs : s.refused = true) :
    t.refused = true := by
  cases exec_cases h with
  | reached n u r hu ht => simp [ht, hu.refused, hs]
  | missed n ht => simp [ht, hs]
  | refused r hi ht => simp [ht]

/-- Settles O21: an instruction that is an event on pin `p` for no drive keeps that pin's drive. -/
theorem driveWrittenOnlyByEvents : Obligations.DriveWrittenOnlyByEvents := by
  intro i s t p h hne
  by_contra hi
  exact hne (exec_ext_get h (not_exists.1 hi))

/-- Settles O31: a refusal sets `refused`; a step is a change of the host's side, one instruction or one refusal, and none
of them clears it. -/
theorem refusedNeverCleared : Obligations.RefusedNeverCleared := by
  constructor
  · intro r s t h
    injection h with h
    rw [← h]
    rfl
  · intro s t h hs
    cases step_cases h with
    | host h => rw [h.refused, hs]
    | ran i u v hu hi ht => rw [ht.refused, exec_keeps_refused hi (hu.refused.trans hs)]
    | refused r u hu ht => simp [ht]

end Sys2Proof.Machine

/-! SUPPORT. Consistency (R26, R96, R97, R103, D1) through an instruction and through the host's side. -/

namespace Sys2Proof.Machine

/-- R26, R86: the one write of the control register clears bits 7 and 0 of what it stores. -/
theorem update_controlReserved (i : Instr) {s : State} (h : ControlReserved s) : ControlReserved (update i s) := by
  cases i with
  | wrIocon d => simp [ControlReserved, update]
  | wrIntfA d | wrIntfB d => simp only [update]; split <;> exact h
  | _ => exact h

theorem Reached.controlReserved {i : Instr} {s t : State} (h : Reached i s t) (hs : ControlReserved s) :
    ControlReserved t := by
  obtain ⟨u, hu, rfl⟩ := h
  have hiocon : (levelEval u).iocon = (update i s).iocon := by rw [levelEval_iocon, hu.frame]
  rw [ControlReserved, hiocon]
  exact update_controlReserved i hs

/-- R96, R97: a re-resolved pin takes its fixed level; any other pin keeps its level and what fixes it. -/
theorem Reached.levelsSettled {i : Instr} {s t : State} (h : Reached i s t) (hs : LevelsSettled s) :
    LevelsSettled t := by
  intro p v hv
  have ⟨u, hu, ht⟩ := h
  have hdet : determined p t = determined p (update i s) := by
    rw [ht, (levelEval_same u).determined, hu.same.determined]
  by_cases hp : reresolves i s p
  · rw [ht, levelEval_level]
    exact hu.settled p v hp (hdet ▸ hv)
  · rw [h.level hp]
    exact hs p v (by rw [← determined_update hp, ← hdet, hv])

/-- R103: `level_eval` flags every mismatched pin, and itself makes none. -/
theorem levelEval_mismatchFlagged (s : State) : MismatchFlagged (levelEval s) := by
  intro p hp
  rw [(levelEval_same s).mismatched (levelEval_level s p)] at hp
  simp [flag_levelEval, hp]

theorem Reached.consistent {i : Instr} {s t : State} (h : Reached i s t) (hs : Consistent s) : Consistent t := by
  obtain ⟨hcontrol, hlevels, -, hmap⟩ := hs
  refine ⟨h.controlReserved hcontrol, h.levelsSettled hlevels, ?_, ?_⟩
  · obtain ⟨u, -, rfl⟩ := h
    exact levelEval_mismatchFlagged u
  · rw [MapInjective, h.params]
    exact hmap

/-- Consistency looks at no field of the host's side. -/
theorem HostOnly.consistent {s t : State} (h : HostOnly s t) (hs : Consistent s) : Consistent t := by
  unfold HostOnly at h
  rw [h]
  exact hs

/-- Consistency looks at no draw count. -/
theorem Consistent.drawn {s : State} (h : Consistent s) (n : Nat) : Consistent (s.drawn n) := h

/-- Consistency does not look at what a transaction gave its issuer. -/
theorem Consistent.setReply {s : State} (h : Consistent s) (r : Reply) : Consistent (s.setReply r) := h

/-- R134: a refusal keeps consistency. -/
theorem Consistent.markRefused {s : State} (h : Consistent s) : Consistent s.markRefused := h

/-- Every instruction keeps consistency, whether it reaches the chip, fails or is refused. -/
theorem exec_consistent {i : Instr} {s t : State} (h : exec i s = .next t) (hs : Consistent s) : Consistent t := by
  cases exec_cases h with
  | reached n u r hu ht => exact ht ▸ (hu.consistent (hs.drawn n)).setReply r
  | missed n ht => exact ht ▸ (hs.drawn n).setReply .failed
  | refused r hi ht => exact ht ▸ hs.markRefused.setReply (.refused r)

/-- Settles O39: a step is a change of the host's side, one instruction or one refusal, and each keeps consistency. -/
theorem stepKeepsConsistent : Obligations.StepKeepsConsistent := by
  intro s t hs h
  cases step_cases h with
  | host h => exact h.consistent hs
  | ran i u v hu hi ht => exact ht.consistent (exec_consistent hi (hu.consistent hs))
  | refused r u hu ht => exact ht ▸ (hu.consistent hs).markRefused.setReply (.refused r)

end Sys2Proof.Machine

/-! SUPPORT. What a move does to its thread (R44, R45, R145), and that nothing else writes one. -/

namespace Sys2Proof.Machine

theorem update_threads (i : Instr) (s : State) : (update i s).threads = s.threads := by
  cases i with
  | wrIntfA d | wrIntfB d => simp only [update]; split <;> rfl
  | _ => rfl

theorem Reached.threads {i : Instr} {s t : State} (h : Reached i s t) : t.threads = s.threads := by
  obtain ⟨u, hu, rfl⟩ := h
  calc (levelEval u).threads = u.threads := levelEval_threads u
    _ = (update i s).threads := by rw [hu.frame]
    _ = s.threads := update_threads i s

/-- No instruction writes a thread: what it gave its issuer stands in the reply. -/
theorem exec_threads {i : Instr} {s t : State} (h : exec i s = .next t) : t.threads = s.threads := by
  cases exec_cases h with
  | reached n u r hu ht => simp [ht, hu.threads]
  | missed n ht => simp [ht]
  | refused r hi ht => simp [ht]

/-- An operation that has moved nothing yet has a transaction to issue; only `close` issues none (R118). -/
theorem DriverOp.next_nil_issues {op : DriverOp} (h : op ≠ .closeDriver) : ∃ i, op.next [] = .issue i := by
  cases op with
  | closeDriver => exact absurd rfl h
  | _ => exact ⟨_, rfl⟩

/-- Everything a move can do to thread `n`, which stood at `x` with operation `op` in progress: the operation returned, or
it waits with a transaction still to issue. -/
inductive MoveCase (n : Nat) (x : Thread) (op : DriverOp) (s t : State) : Prop where
  | returned (r : OpResult) (ht : t.threads = s.threads.set n (x.finish r))
  | waits (moved : List Byte) (i : Instr) (hi : op.next moved = .issue i)
      (ht : t.threads = s.threads.set n (x.goOn moved))

theorem beginOp_moveCase (n : Nat) (x : Thread) (op : DriverOp) (s : State) : MoveCase n x op s (beginOp n x op s) := by
  cases op with
  | openDriver a path =>
    simp only [beginOp]
    split
    · exact .waits [] _ rfl rfl
    · exact .returned _ rfl
  | closeDriver => exact .returned .ok rfl
  | _ =>
    simp only [beginOp]
    split
    · split
      · exact .returned _ rfl
      · exact .waits [] _ rfl rfl
    · exact .returned _ rfl

theorem abortOp_moveCase (n : Nat) (x : Thread) (op : DriverOp) (s : State) : MoveCase n x op s (abortOp n x op s) := by
  cases op <;> exact .returned _ rfl

theorem advanceOp_moveCase (n : Nat) (x : Thread) (op : DriverOp) (moved : List Byte) (s : State) :
    MoveCase n x op s (advanceOp n x op moved s) := by
  unfold advanceOp
  split
  · exact .returned _ rfl
  · exact .waits moved _ ‹_› rfl

theorem afterTransaction_moveCase (n : Nat) (x : Thread) (op : DriverOp) (moved : List Byte) (s : State) :
    MoveCase n x op s (afterTransaction n x op moved s) := by
  unfold afterTransaction
  split
  · exact advanceOp_moveCase ..
  · exact advanceOp_moveCase ..
  all_goals exact abortOp_moveCase ..

/-- `MoveCase` looks at the threads of the first state only. -/
theorem MoveCase.of_threads {n : Nat} {x : Thread} {op : DriverOp} {s u t : State} (h : MoveCase n x op u t)
    (hu : u.threads = s.threads) : MoveCase n x op s t := by
  cases h with
  | returned r ht => exact .returned r (hu ▸ ht)
  | waits moved i hi ht => exact .waits moved i hi (hu ▸ ht)

/-- R44, R45: a move leaves the threads as they were, or it moves the operation its own thread has in progress. -/
theorem moveThread_threads {n : Nat} {s t : State} (h : moveThread n s = .next t) :
    t.threads = s.threads ∨
      ∃ x op rest, s.threads[n]? = some x ∧ x.program = op :: rest ∧ MoveCase n x op s t := by
  unfold moveThread at h
  split at h
  · injection h with h
    exact .inl (h ▸ rfl)
  · rename_i x hx
    split at h
    · injection h with h
      exact .inl (h ▸ rfl)
    · rename_i op rest hprogram
      refine .inr ⟨x, op, rest, hx, hprogram, ?_⟩
      split at h
      · injection h with h
        exact h ▸ beginOp_moveCase ..
      · split at h
        · rename_i r _
          injection h with h
          exact .returned r (h ▸ rfl)
        · rename_i i _
          obtain ⟨u, hu⟩ := exec_completes i s
          rw [hu] at h
          injection h with h
          exact (h ▸ afterTransaction_moveCase ..).of_threads (exec_threads hu)

/-- A thread whose operation has just returned is between operations. -/
theorem threadWaits_finish (x : Thread) (r : OpResult) : ThreadWaits (x.finish r) := trivial

theorem threadWaits_goOn {x : Thread} {op : DriverOp} {rest : List DriverOp} {moved : List Byte} {i : Instr}
    (hprogram : x.program = op :: rest) (hi : op.next moved = .issue i) : ThreadWaits (x.goOn moved) :=
  ⟨op, rest, i, hprogram, hi⟩

theorem ThreadsWait.of_threads {s t : State} (hs : ThreadsWait s) (ht : t.threads = s.threads) : ThreadsWait t := by
  rwa [ThreadsWait, ht]

theorem ThreadsWait.set {s t : State} {n : Nat} {y : Thread} (hs : ThreadsWait s) (hy : ThreadWaits y)
    (ht : t.threads = s.threads.set n y) : ThreadsWait t := by
  intro z hz
  rw [ht] at hz
  rcases List.mem_or_eq_of_mem_set hz with hz | rfl
  · exact hs z hz
  · exact hy

/-- R45: a thread that a move leaves under way has the transaction of its next move to issue. -/
theorem MoveCase.threadsWait {n : Nat} {x : Thread} {op : DriverOp} {rest : List DriverOp} {s t : State}
    (h : MoveCase n x op s t) (hprogram : x.program = op :: rest) (hs : ThreadsWait s) : ThreadsWait t := by
  cases h with
  | returned r ht => exact hs.set (threadWaits_finish x r) ht
  | waits moved i hi ht => exact hs.set (threadWaits_goOn hprogram hi) ht

theorem moveThread_threadsWait {n : Nat} {s t : State} (h : moveThread n s = .next t) (hs : ThreadsWait s) :
    ThreadsWait t := by
  rcases moveThread_threads h with ht | ⟨x, op, rest, -, hprogram, hmove⟩
  · exact hs.of_threads ht
  · exact hmove.threadsWait hprogram hs

theorem serveDecoded_threads {d : Decoded} {s t : State} (h : serveDecoded d s = .next t) : t.threads = s.threads := by
  cases d with
  | instr i => exact exec_threads h
  | refuse r =>
    injection h with h
    exact h ▸ rfl

/-- R145: a thread starts between operations. -/
theorem ThreadsWait.spawn {s : State} (hs : ThreadsWait s) (program : List DriverOp) :
    ThreadsWait { s with threads := s.threads ++ [⟨program, .start, []⟩] } := by
  intro x hx
  rcases List.mem_append.1 hx with hx | hx
  · exact hs x hx
  · rw [List.mem_singleton.1 hx]
    trivial

/-- R118: only a thread between operations leaves its scope, and it stays between operations. -/
theorem leaveScope_threadsWait (n : Nat) {s : State} (hs : ThreadsWait s) : ThreadsWait (leaveScope n s) := by
  unfold leaveScope
  split
  · exact hs
  · rename_i x _
    split
    · rename_i hstart
      have hleave : ThreadWaits x.leave := by
        unfold ThreadWaits Thread.leave
        rw [hstart]
        trivial
      exact hs.set hleave rfl
    · exact hs

theorem serve_threadsWait {q : Request} {s t : State} (h : serve q s = .next t) (hs : ThreadsWait s) :
    ThreadsWait t := by
  cases q with
  | tx w f => exact (hs.of_threads (t := s.setFate f) rfl).of_threads (serveDecoded_threads h)
  | event w => exact hs.of_threads (serveDecoded_threads h)
  | burst a k =>
    injection h with h
    exact hs.of_threads (h ▸ rfl)
  | spawn program =>
    injection h with h
    exact h ▸ hs.spawn program
  | move n f => exact moveThread_threadsWait h (hs.of_threads rfl)
  | leaveScope n =>
    injection h with h
    exact h ▸ leaveScope_threadsWait n hs

/-- Settles O41: with nothing asked of it the machine keeps its threads, and serving a request keeps every thread between
moves. -/
theorem threadsStayBetweenMoves : Obligations.ThreadsStayBetweenMoves := by
  intro s t hs h
  unfold step at h
  split at h
  · injection h with h
    exact h ▸ hs
  · exact serve_threadsWait h (hs.of_threads rfl)

end Sys2Proof.Machine

/-! SUPPORT. A step runs what the oldest request's word decodes to (R44, R51, R59). -/

namespace Sys2Proof

theorem Decoded.instr?_eq_some {d : Decoded} {i : Instr} (h : d.instr? = some i) : d = .instr i := by
  cases d with
  | instr j => exact congrArg Decoded.instr (Option.some.inj h)
  | refuse r => cases h

/-- R54: the bits of a row of the opcode table are the bits of a word that decodes under the default map. -/
theorem exists_word_of_decodeTableWord {nbits w : Nat} {i : Instr} (h : decodeTableWord nbits w = some i) :
    ∃ x, wordOfBits nbits w = some x ∧ decode RegMap.vendor x = .instr i := by
  obtain ⟨x, hx, hi⟩ := Option.bind_eq_some_iff.1 h
  exact ⟨x, hx, Decoded.instr?_eq_some hi⟩

/-- R49, R50: at most eight bits are the environment's word, more are a host's. -/
theorem wordOfBits_format {nbits w : Nat} {x : Word} (h : wordOfBits nbits w = some x) :
    (nbits ≤ 8 ∧ ∃ e, x = .ev e) ∨ (¬nbits ≤ 8 ∧ ∃ t, x = .tx t) := by
  unfold wordOfBits at h
  by_cases hn : nbits ≤ 8
  · rw [if_pos hn] at h
    exact .inl ⟨hn, _, (Option.some.inj (Option.ite_none_right_eq_some.1 h).2).symm⟩
  · rw [if_neg hn] at h
    exact .inr ⟨hn, _, (Option.some.inj (Option.ite_none_right_eq_some.1 h).2).symm⟩

end Sys2Proof

namespace Sys2Proof.Machine

theorem step_eq_serve {s : State} {q : Request} {rest : List Request} (h : s.agenda = q :: rest) :
    step s = serve q { s with agenda := rest } := by
  unfold step
  rw [h]

theorem step_tx {s : State} {w : BitVec 17} {f : Fate} {rest : List Request} {i : Instr} (h : s.agenda = .tx w f :: rest)
    (hi : decode s.params.regmap (.tx w) = .instr i) : step s = exec i { s with agenda := rest, fate := f } :=
  calc step s = serveDecoded (decode s.params.regmap (.tx w)) { s with agenda := rest, fate := f } := step_eq_serve h
    _ = exec i { s with agenda := rest, fate := f } := by rw [hi]; rfl

theorem step_event {s : State} {e : BitVec 8} {rest : List Request} {i : Instr} (h : s.agenda = .event e :: rest)
    (hi : decode s.params.regmap (.ev e) = .instr i) : step s = exec i { s with agenda := rest } :=
  calc step s = serveDecoded (decode s.params.regmap (.ev e)) { s with agenda := rest } := step_eq_serve h
    _ = exec i { s with agenda := rest } := by rw [hi]; rfl

/-- A word of the opcode table placed as the next request is run by the very next step, as a transaction that completes or as
an event. -/
theorem step_withFetchWord {s : State} {nbits w : Nat} {i : Instr} (hmap : s.params.regmap = RegMap.vendor)
    (h : decodeTableWord nbits w = some i) :
    step (s.withFetchWord nbits w) = exec i (if nbits ≤ 8 then s else { s with fate := .completes }) := by
  obtain ⟨x, hx, hi⟩ := exists_word_of_decodeTableWord h
  have hagenda : (s.withFetchWord nbits w).agenda = requestOf (some x) :: s.agenda := by
    rw [← hx]
    rfl
  rw [← hmap] at hi
  rcases wordOfBits_format hx with ⟨hn, e, rfl⟩ | ⟨hn, v, rfl⟩
  · rw [if_pos hn]
    exact step_event hagenda hi
  · rw [if_neg hn]
    exact step_tx hagenda hi

/-- Settles O6: the three ways an instruction becomes the next thing to run, each by its own lemma. -/
theorem stepRunsDecodedWord : Obligations.StepRunsDecodedWord :=
  ⟨fun _ _ _ _ _ => step_tx, fun _ _ _ _ => step_event, fun _ _ _ _ => step_withFetchWord⟩

end Sys2Proof.Machine

/-! SUPPORT. Decoding undoes encoding and encoding undoes decoding (R49 to R54, R57). -/

namespace Sys2Proof

open Claims (eventOf)

/-- R49: a `TX` word is its `RW`, `ADDR` and `DATA` fields. -/
theorem tx_ext {v w : BitVec 17} (hrw : v.getLsbD 16 = w.getLsbD 16)
    (haddr : v.extractLsb' 8 8 = w.extractLsb' 8 8) (hdata : v.extractLsb' 0 8 = w.extractLsb' 0 8) : v = w := by
  refine BitVec.eq_of_getLsbD_eq fun k hk => ?_
  by_cases hd : k < 8
  · have h := congrArg (·.getLsbD k) hdata
    simpa [hd] using h
  · by_cases ha : k < 16
    · have h := congrArg (·.getLsbD (k - 8)) haddr
      have hk' : k - 8 < 8 := by omega
      have hsum : 8 + (k - 8) = k := by omega
      simpa [hk', hsum] using h
    · have hk16 : k = 16 := by omega
      rw [hk16, hrw]

/-- R49: a word with `RW = 1` and `DATA = 0` is the read at its address. -/
theorem readWord_of_fields {w : BitVec 17} (hrw : w.getLsbD 16 = true) (hdata : w.extractLsb' 0 8 = 0) :
    readWord (w.extractLsb' 8 8) = .tx w :=
  congrArg Word.tx (tx_ext ((readWord_rw _).trans hrw.symm) (readWord_addr _) ((readWord_data _).trans hdata.symm))

/-- R49: a word with `RW = 0` is the write of its data at its address. -/
theorem writeWord_of_fields {w : BitVec 17} (hrw : w.getLsbD 16 = false) :
    writeWord (w.extractLsb' 8 8) (w.extractLsb' 0 8) = .tx w :=
  congrArg Word.tx (tx_ext ((writeWord_rw _ _).trans hrw.symm) (writeWord_addr _ _) (writeWord_data _ _))

/-- R50: a word with `E[7:6] = 00` is the event of its drive on its pin. -/
theorem eventWord_of_fields {e : BitVec 8} (v : Drive) (hreserved : e.extractLsb' 6 2 = 0)
    (hdrive : e.extractLsb' 4 2 = v.code) : eventWord v (e.extractLsb' 0 4).toFin = .ev e := by
  revert e
  cases v <;> decide

/-- R50: an event's word decodes alike under every map, and to that event. -/
theorem decode_eventWord (m : RegMap) (v : Drive) (p : Pin) : decode m (eventWord v p) = .instr (eventOf v p) :=
  calc decode m (eventWord v p) = decode RegMap.vendor (eventWord v p) := rfl
    _ = .instr (eventOf v p) := by cases v <;> revert p <;> decide

theorem encode_eventOf (m : RegMap) (v : Drive) (p : Pin) : encode m (eventOf v p) = eventWord v p := by
  cases v <;> rfl

/-- Settles O1: an instruction is an event on a pin, the write of a register that has one, or the read of a register. -/
theorem decodeOfEncode : Obligations.DecodeOfEncode := by
  intro m i hm
  cases i with
  | evD0 p => exact decode_eventWord m .d0 p
  | evD1 p => exact decode_eventWord m .d1 p
  | evZ p => exact decode_eventWord m .z p
  | wrIodirA d | wrIodirB d | wrGpintenA d | wrGpintenB d | wrDefvalA d | wrDefvalB d | wrIntconA d | wrIntconB d
  | wrIocon d | wrGppuA d | wrGppuB d | wrIntfA d | wrIntfB d | wrOlatA d | wrOlatB d => exact decode_writeWord hm rfl
  | _ => exact decode_readWord hm _

/-- A `TX` word that decodes has the address of the register it decodes to, and so is that register's read or write. -/
theorem encode_of_decodeTx {m : RegMap} {w : BitVec 17} {i : Instr} (h : decodeTx m w = .instr i) :
    encode m i = .tx w := by
  simp only [decodeTx] at h
  split at h
  · cases h
  · rename_i r hr
    have haddr := RegMap.addr_of_lookup hr
    split at h
    · rename_i hrw
      split at h
      · rename_i hdata
        injection h with h
        calc encode m i = readWord (m.addr r) := h ▸ encode_ofRead m r
          _ = .tx w := haddr ▸ readWord_of_fields hrw hdata
      · cases h
    · rename_i hrw
      split at h
      · rename_i j hj
        injection h with h
        calc encode m i = writeWord (m.addr r) (w.extractLsb' 0 8) := h ▸ encode_ofWrite m hj
          _ = .tx w := haddr ▸ writeWord_of_fields (Bool.eq_false_of_not_eq_true hrw)
      · cases h

/-- R50: an `EV` word that decodes has no reserved bit, and is an event whose drive its `DRV` field names. -/
theorem decodeEv_eq_instr {e : BitVec 8} {i : Instr} (h : decodeEv e = .instr i) :
    e.extractLsb' 6 2 = 0 ∧ ∃ v : Drive, e.extractLsb' 4 2 = v.code ∧ i = eventOf v (e.extractLsb' 0 4).toFin := by
  simp only [decodeEv] at h
  split at h
  · refine ⟨‹_›, ?_⟩
    split at h
    · exact ⟨.d0, ‹_›, (Decoded.instr.inj h).symm⟩
    · split at h
      · exact ⟨.d1, ‹_›, (Decoded.instr.inj h).symm⟩
      · split at h
        · exact ⟨.z, ‹_›, (Decoded.instr.inj h).symm⟩
        · cases h
  · cases h

/-- Settles O2: each format's decoder answers with an instruction only where the word's fields are that instruction's. -/
theorem encodeOfDecode : Obligations.EncodeOfDecode := by
  intro m w i h
  cases w with
  | tx w => exact encode_of_decodeTx h
  | ev e =>
    obtain ⟨hreserved, v, hdrive, rfl⟩ := decodeEv_eq_instr h
    exact (encode_eventOf m v _).trans (eventWord_of_fields v hreserved hdrive)

/-- R54: table bits that make up an instruction's word under the default map are read back as that instruction. -/
theorem decodeTableWord_of_encode {nbits w : Nat} {i : Instr} (h : wordOfBits nbits w = some (encode RegMap.vendor i)) :
    decodeTableWord nbits w = some i := by
  have hi : decode RegMap.vendor (encode RegMap.vendor i) = .instr i := decodeOfEncode _ i (by decide)
  unfold decodeTableWord
  rw [h, Option.bind_some, hi]
  rfl

/-- Settles O3: the bits of each row make up its instruction's word. -/
theorem wordsOfTheOpcodeTable : Obligations.WordsOfTheOpcodeTable := by
  refine ⟨fun iw h => decodeTableWord_of_encode ?_, fun iw h => decodeTableWord_of_encode ?_⟩
  all_goals
    revert iw
    decide

end Sys2Proof

/-! SUPPORT. The words the decoder refuses (R55, R56), and the step that serves one (R134). -/

namespace Sys2Proof

variable {m : RegMap} {w : BitVec 17} {r : Reg}

theorem decodeTx_unmapped (h : m.lookup (w.extractLsb' 8 8) = none) :
    decodeTx m w = .refuse (.unmappedRegister (w.extractLsb' 8 8)) := by
  simp only [decodeTx, h]

theorem decodeTx_readWithData (hr : m.lookup (w.extractLsb' 8 8) = some r) (hrw : w.getLsbD 16 = true)
    (hdata : w.extractLsb' 0 8 ≠ 0) : decodeTx m w = .refuse (.reservedField w.toNat) := by
  simp only [decodeTx, hr, hrw, hdata, if_true, if_false]

theorem decodeTx_write {i : Instr} (hr : m.lookup (w.extractLsb' 8 8) = some r) (hrw : w.getLsbD 16 = false)
    (hi : Instr.ofWrite r (w.extractLsb' 0 8) = some i) : decodeTx m w = .instr i := by
  simp only [decodeTx, hr, hrw, hi, Bool.false_eq_true, if_false]

theorem decodeTx_writeWithout (hr : m.lookup (w.extractLsb' 8 8) = some r) (hrw : w.getLsbD 16 = false)
    (hi : Instr.ofWrite r (w.extractLsb' 0 8) = none) :
    decodeTx m w = .refuse (.writeToReadOnly (w.extractLsb' 8 8)) := by
  simp only [decodeTx, hr, hrw, hi, Bool.false_eq_true, if_false]

/-- R56, R59: the input and the capture registers have no write. -/
theorem Instr.ofWrite_readOnly (h : ∃ b, r = .paired .gpio b ∨ r = .paired .intcap b) (d : Byte) :
    Instr.ofWrite r d = none := by
  obtain ⟨b, rfl | rfl⟩ := h <;> cases b <;> rfl

theorem decodeEv_reserved {e : BitVec 8} (h : e.extractLsb' 6 2 ≠ 0 ∨ e.extractLsb' 4 2 = 3) :
    decodeEv e = .refuse (.reservedField e.toNat) := by
  rcases h with hreserved | hdrive
  · exact if_neg hreserved
  · simp [decodeEv, hdrive]

end Sys2Proof

namespace Sys2Proof.Machine

section Refusals

variable {s : State} {rest : List Request}

/-- R134: a refused transaction word changes no register, whatever the transport's verdict. -/
theorem step_tx_refused {w : BitVec 17} {f : Fate} {r : RefuseReason} (h : s.agenda = .tx w f :: rest)
    (hr : decodeTx s.params.regmap w = .refuse r) :
    step s = .next { s with agenda := rest, fate := f, refused := true, reply := .refused r } :=
  calc step s = serveDecoded (decodeTx s.params.regmap w) { s with agenda := rest, fate := f } := step_eq_serve h
    _ = .next { s with agenda := rest, fate := f, refused := true, reply := .refused r } := by rw [hr]; rfl

/-- R134: a refused event word changes no register. -/
theorem step_event_refused {e : BitVec 8} {r : RefuseReason} (h : s.agenda = .event e :: rest)
    (hr : decodeEv e = .refuse r) :
    step s = .next { s with agenda := rest, refused := true, reply := .refused r } :=
  calc step s = serveDecoded (decodeEv e) { s with agenda := rest } := step_eq_serve h
    _ = .next { s with agenda := rest, refused := true, reply := .refused r } := by rw [hr]; rfl

/-- R86: a write of 1 to bit 7 of the control register is refused before the transport's verdict is looked at. -/
theorem exec_wrIocon_reserved {d : Byte} (h : d.getLsbD 7 = true) (s : State) :
    exec (.wrIocon d) s = .next { s with refused := true, reply := .refused (.reservedConfig d) } :=
  if_pos h

/-- R86: the decoder reads such a write as an instruction, and the write itself is what is refused. -/
theorem step_writeIocon_reserved {w : BitVec 17} {f : Fate} (h : s.agenda = .tx w f :: rest)
    (hr : s.params.regmap.lookup (w.extractLsb' 8 8) = some .iocon) (hrw : w.getLsbD 16 = false)
    (hbit : w.getLsbD 7 = true) :
    step s = .next { s with agenda := rest, fate := f, refused := true,
                            reply := .refused (.reservedConfig (w.extractLsb' 0 8)) } :=
  (step_tx h (decodeTx_write hr hrw rfl)).trans (exec_wrIocon_reserved (by simpa using hbit) _)

end Refusals

/-- Settles O4: such a word decodes to a refusal; the default map's decoded addresses are 0x00, 0x01, 0x04 to 0x0A and 0x0C
to 0x15. -/
theorem unmappedAddressRefused : Obligations.UnmappedAddressRefused :=
  ⟨fun _ _ _ _ h hlookup => step_tx_refused h (decodeTx_unmapped hlookup), by decide⟩

/-- Settles O5: all but the write of bit 7 to the control register and the burst are words the decoder refuses. -/
theorem illegalEncodingsRefused : Obligations.IllegalEncodingsRefused := by
  intro s rest w f r
  refine ⟨?read, ?readOnly, ?control, ?event, ?burst⟩
  case read => exact fun h hr hrw hdata => step_tx_refused h (decodeTx_readWithData hr hrw hdata)
  case readOnly =>
    exact fun h hr hrw hreg => step_tx_refused h (decodeTx_writeWithout hr hrw (Instr.ofWrite_readOnly hreg _))
  case control =>
    rintro h hr hrw rfl hbit
    exact step_writeIocon_reserved h hr hrw hbit
  case event => exact fun e h he => step_event_refused h (decodeEv_reserved he)
  case burst => exact fun a n h => step_eq_serve h

end Sys2Proof.Machine

/-! SUPPORT. The completed register transactions (R36 to R41, R61 to R94): what each moves, stores and re-resolves, and the
flags that follow. -/

namespace Sys2Proof.Machine

open Claims (PinsReResolved writeIntf)

/-! ### What one register's instruction of either bank runs -/

theorem exec_readReg_intcap (b : Bank) (s : State) : exec (readReg .intcap b) s = ackReadTx (captureRead b) s := by
  cases b <;> rfl

theorem exec_readReg_gpio (b : Bank) (s : State) : exec (readReg .gpio b) s = readLevels b s := by
  cases b <;> rfl

theorem exec_writeIodir (b : Bank) (d : Byte) (s : State) : exec (writeIodir b d) s = writeTx d (storeIodir b d) s := by
  cases b <;> rfl

theorem exec_writeGppu (b : Bank) (d : Byte) (s : State) : exec (writeGppu b d) s = writeTx d (storeGppu b d) s := by
  cases b <;> rfl

theorem exec_writeOlat (b : Bank) (d : Byte) (s : State) : exec (writeOlat b d) s = writeTx d (storeOlat b d) s := by
  cases b <;> rfl

theorem exec_writeGpinten (b : Bank) (d : Byte) (s : State) :
    exec (writeGpinten b d) s = writeTx d (storeGpinten b d) s := by
  cases b <;> rfl

theorem exec_writeIntcon (b : Bank) (d : Byte) (s : State) :
    exec (writeIntcon b d) s = writeTx d (storeIntcon b d) s := by
  cases b <;> rfl

theorem exec_writeDefval (b : Bank) (d : Byte) (s : State) :
    exec (writeDefval b d) s = writeTx d (storeDefval b d) s := by
  cases b <;> rfl

theorem exec_writeIntf (b : Bank) (d : Byte) (s : State) : exec (writeIntf b d) s = writeTx d (storeIntf b d) s := by
  cases b <;> rfl

theorem exec_wrIocon {d : Byte} (h : d.getLsbD 7 = false) (s : State) :
    exec (.wrIocon d) s = writeTx d (storeIocon d) s := by
  change (if d.getLsbD 7 then _ else _) = _
  rw [h]
  rfl

/-! ### The flags of a transaction -/

/-- R103: `level_eval` after an update that changes no level and no capture. -/
theorem levelEval_flagsFollow_of_same {s u : State} (hl : u.lvl = s.lvl) (hc : u.cap = s.cap) :
    FlagsFollow u.intf s (levelEval u) :=
  (levelEval_flagsFollow u).of_same hl hc

/-- R102, R103: under `EDGE_TO_REF` a step that changes no level raises no flag. -/
theorem raises_of_edgeToRef {s t : State} (hl : t.lvl = s.lvl) (he : t.params.triggerSense = .edgeToRef) (p : Pin) :
    raises s t p = false := by
  simp [raises, level, mismatched, hl, he]

/-- R102, R103: so its flags are those it first left, and its captures are as before. -/
theorem FlagsFollow.of_edgeToRef {base : Banked Byte} {s t : State} (h : FlagsFollow base s t) (hl : t.lvl = s.lvl)
    (he : t.params.triggerSense = .edgeToRef) : t.intf = base ∧ t.cap = s.cap := by
  have hr := raises_of_edgeToRef hl he
  constructor <;> refine banked_ext fun p => ?_
  · exact (h p).1.trans (by simp [hr])
  · exact (h p).2.trans (by simp [hr, capture])

/-! ### Reads -/

/-- R41, R61: a completed read of a stored register. -/
theorem readStored_completes {s : State} (v : State → Byte) (h : s.fate = .completes) :
    ∃ t, readStored v s = .next t ∧ t = { s with intf := t.intf, cap := t.cap, reply := .value (v s) } ∧
      FlagsFollow s.intf s t :=
  ⟨_, readTx_completes _ h, rfl, levelEval_flagsFollow s⟩

/-- Settles O7: each of the six is a read of a stored register. -/
theorem readPinRegisters : Obligations.ReadPinRegisters := by
  intro s h iv hiv
  simp only [Claims.pinRegisterReads, List.mem_cons, List.not_mem_nil, or_false] at hiv
  rcases hiv with rfl | rfl | rfl | rfl | rfl | rfl
  · exact readStored_completes (·.iodir.get .bankA) h
  · exact readStored_completes (·.iodir.get .bankB) h
  · exact readStored_completes (·.gppu.get .bankA) h
  · exact readStored_completes (·.gppu.get .bankB) h
  · exact readStored_completes (·.olat.get .bankA) h
  · exact readStored_completes (·.olat.get .bankB) h

/-- Settles O8: each of the eight is a read of a stored register. -/
theorem readInterruptRegisters : Obligations.ReadInterruptRegisters := by
  intro s h iv hiv
  simp only [Claims.interruptRegisterReads, List.mem_cons, List.not_mem_nil, or_false] at hiv
  rcases hiv with rfl | rfl | rfl | rfl | rfl | rfl | rfl | rfl
  · exact readStored_completes (·.gpinten.get .bankA) h
  · exact readStored_completes (·.gpinten.get .bankB) h
  · exact readStored_completes (·.intcon.get .bankA) h
  · exact readStored_completes (·.intcon.get .bankB) h
  · exact readStored_completes (·.defval.get .bankA) h
  · exact readStored_completes (·.defval.get .bankB) h
  · exact readStored_completes (·.intf.get .bankA) h
  · exact readStored_completes (·.intf.get .bankB) h

/-- R26: the mask of a read of the control register selects bits 7 to 1. -/
theorem getLsbD_controlReadMask (k : Nat) : (0xFE : Byte).getLsbD k = decide (1 ≤ k ∧ k ≤ 7) := by
  by_cases hk : k < 8
  · interval_cases k <;> rfl
  · rw [BitVec.getLsbD_of_ge _ _ (by omega)]
    exact (decide_eq_false (by omega)).symm

/-- R86: the mask of a write of the control register selects bits 6 to 1. -/
theorem getLsbD_controlWriteMask (k : Nat) : (0x7E : Byte).getLsbD k = decide (1 ≤ k ∧ k ≤ 6) := by
  by_cases hk : k < 8
  · interval_cases k <;> rfl
  · rw [BitVec.getLsbD_of_ge _ _ (by omega)]
    exact (decide_eq_false (by omega)).symm

/-- R85: the draw reaches bit 0 alone. -/
theorem controlRead_getLsbD (s : State) {k : Nat} (hk : 1 ≤ k) :
    (controlRead s).1.getLsbD k = s.iocon.getLsbD k := by
  by_cases h7 : k ≤ 7
  · have hdraw : (BitVec.ofBool (drawBit s).1).getLsbD k = false := BitVec.getLsbD_of_ge _ _ hk
    rw [BitVec.getLsbD_or, BitVec.getLsbD_and, getLsbD_controlReadMask, BitVec.getLsbD_setWidth, hdraw]
    simp [hk, h7]
  · rw [BitVec.getLsbD_of_ge _ _ (by omega), BitVec.getLsbD_of_ge _ _ (by omega)]

/-- Settles O9: the update of the read is one draw. -/
theorem readControlRegister : Obligations.ReadControlRegister := by
  intro s h
  exact ⟨_, (controlRead s).1, readTx_completes controlRead h, rfl, fun _ => controlRead_getLsbD s,
    levelEval_flagsFollow_of_same (u := s.drawn 1) rfl rfl⟩

/-- R91: where a pin is flagged, its capture is selected over the draw. -/
theorem captureRead_getLsbD {s : State} {p : Pin} (h : flag p s = true) :
    (captureRead (bankOf p) s).1.getLsbD (bitOf p) = capture p s := by
  have hf : (s.intf.get (bankOf p)).getLsbD (bitOf p) = true := h
  simp [capture, pinBit, hf]

/-- Settles O10: the update of the read is eight draws and the acknowledge. -/
theorem readCaptureRegister : Obligations.ReadCaptureRegister := by
  intro s b h
  rw [exec_readReg_intcap]
  refine ⟨_, (captureRead b s).1, ackReadTx_completes (captureRead b) h, rfl, ?_,
    levelEval_flagsFollow_of_same (u := (s.drawn 8).setIntf b 0) rfl rfl⟩
  rintro p rfl hp
  exact captureRead_getLsbD hp

/-- Settles O11: the update of the read is the acknowledge. -/
theorem readInputRegister : Obligations.ReadInputRegister := by
  intro s b h
  rw [exec_readReg_gpio]
  refine ⟨_, s.lvl.get b, ackReadTx_completes _ h, rfl, ?_,
    levelEval_flagsFollow_of_same (u := s.setIntf b 0) rfl rfl⟩
  rintro p rfl
  rfl

/-! ### Writes that re-resolve pins -/

/-- The exclusive or of a bank's old and new byte marks the pins whose bit changed. -/
theorem getLsbD_xor_iff_pinBit_ne (old : Banked Byte) {b : Bank} (d : Byte) {p : Pin} (hp : bankOf p = b) :
    (old.get b ^^^ d).getLsbD (bitOf p) = true ↔ pinBit old p ≠ pinBit (old.set b d) p := by
  subst hp
  simp [pinBit]

/-- R97: `resolve_changed` over the bits of a bank that changed, and `level_eval`. -/
theorem pinsReResolved_resolveChanged (b : Bank) (old : Banked Byte) (d : Byte) (u : State) :
    PinsReResolved b old (old.set b d) u (levelEval (resolveChanged b (old.get b ^^^ d) u)) := by
  have hres := resolveChanged_resolved b (old.get b ^^^ d) u
  constructor
  · intro p hp
    rw [levelEval_level]
    refine hres.kept p fun ⟨hb, hbit⟩ => ?_
    exact hp.elim (· hb) ((getLsbD_xor_iff_pinBit_ne old d hb).1 hbit)
  · intro p v hb hne hv
    rw [(levelEval_same _).determined, hres.same.determined] at hv
    rw [levelEval_level]
    exact hres.settled p v ⟨hb, (getLsbD_xor_iff_pinBit_ne old d hb).2 hne⟩ hv

/-- `PinsReResolved` looks at the levels of the first state only. -/
theorem pinsReResolved_of_same {b : Bank} {old new : Banked Byte} {s u t : State} (h : PinsReResolved b old new u t)
    (hl : u.lvl = s.lvl) : PinsReResolved b old new s t := by
  simpa [PinsReResolved, level, hl] using h

/-- R62 to R72: a completed write of `d` that makes the state `u` and re-resolves the pins of bank `b` whose bits in `old` it
changed. -/
theorem writeTx_reResolves {s u : State} {b : Bank} {d : Byte} {old : Banked Byte} {store : State → State}
    (h : s.fate = .completes) (hstore : store s = levelEval (resolveChanged b (old.get b ^^^ d) u))
    (hl : u.lvl = s.lvl) (hf : u.intf = s.intf) (hc : u.cap = s.cap) :
    ∃ t, writeTx d store s = .next t ∧
      t = { u with lvl := t.lvl, intf := t.intf, cap := t.cap, draws := t.draws, reply := .written d } ∧
      PinsReResolved b old (old.set b d) s t ∧ FlagsFollow s.intf s t := by
  have hres := resolveChanged_resolved b (old.get b ^^^ d) u
  refine ⟨_, writeTx_completes d store h, ?_⟩
  rw [hstore]
  refine ⟨congrArg (·.setReply (.written d)) hres.eval_frame, ?_, ?_⟩
  · exact pinsReResolved_of_same (pinsReResolved_resolveChanged b old d u) hl
  · exact hf ▸ hres.flagsFollow.of_same hl hc

/-- Settles O12: the direction register decides levels. -/
theorem writeDirectionRegister : Obligations.WriteDirectionRegister := by
  intro s b d h
  obtain ⟨t, ht, hframe, hpins, hflags⟩ :=
    writeTx_reResolves (u := s.setIodir b d) (store := storeIodir b d) h rfl rfl rfl rfl
  have hreg : t.iodir = s.iodir.set b d := congrArg State.iodir hframe
  exact ⟨t, (exec_writeIodir b d s).trans ht, hframe, hreg ▸ hpins, hflags⟩

/-- Settles O13: the pull-up register decides levels. -/
theorem writePullUpRegister : Obligations.WritePullUpRegister := by
  intro s b d h
  obtain ⟨t, ht, hframe, hpins, hflags⟩ :=
    writeTx_reResolves (u := s.setGppu b d) (store := storeGppu b d) h rfl rfl rfl rfl
  have hreg : t.gppu = s.gppu.set b d := congrArg State.gppu hframe
  exact ⟨t, (exec_writeGppu b d s).trans ht, hframe, hreg ▸ hpins, hflags⟩

/-- Settles O14: the output latch decides levels. -/
theorem writeLatchRegister : Obligations.WriteLatchRegister := by
  intro s b d h
  obtain ⟨t, ht, hframe, hpins, hflags⟩ :=
    writeTx_reResolves (u := s.setOlat b d) (store := storeOlat b d) h rfl rfl rfl rfl
  have hreg : t.olat = s.olat.set b d := congrArg State.olat hframe
  exact ⟨t, (exec_writeOlat b d s).trans ht, hframe, hreg ▸ hpins, hflags⟩

/-! ### Writes that re-resolve none -/

/-- R40: a completed write of `d` that makes the state `u`, with every level as it was, and then evaluates the level
conditions. -/
theorem writeTx_evaluates {s u : State} {d : Byte} {store : State → State} (h : s.fate = .completes)
    (hstore : store s = levelEval u) (hl : u.lvl = s.lvl) (hc : u.cap = s.cap) :
    ∃ t, writeTx d store s = .next t ∧ t = { u with intf := t.intf, cap := t.cap, reply := .written d } ∧
      FlagsFollow u.intf s t := by
  refine ⟨_, writeTx_completes d store h, ?_⟩
  rw [hstore]
  exact ⟨rfl, levelEval_flagsFollow_of_same hl hc⟩

/-- Settles O15: each of the three stores the byte and evaluates the level conditions. -/
theorem writeInterruptSetting : Obligations.WriteInterruptSetting := by
  intro s b d h
  rw [exec_writeGpinten, exec_writeIntcon, exec_writeDefval]
  exact ⟨writeTx_evaluates (u := s.setGpinten b d) h rfl rfl rfl, writeTx_evaluates (u := s.setIntcon b d) h rfl rfl rfl,
    writeTx_evaluates (u := s.setDefval b d) h rfl rfl rfl⟩

/-- Settles O16: a byte with bit 7 clear is stored under the mask of bits 6 to 1; any other is refused. -/
theorem writeControlRegister : Obligations.WriteControlRegister := by
  intro s d
  refine ⟨fun hd h => ?_, fun hd => exec_wrIocon_reserved hd s⟩
  obtain ⟨t, ht, hframe, hflags⟩ :=
    writeTx_evaluates (u := s.setIocon (d &&& 0x7E)) (store := storeIocon d) h rfl rfl rfl
  have hreg : t.iocon = d &&& 0x7E := congrArg State.iocon hframe
  refine ⟨t, (exec_wrIocon hd s).trans ht, hreg ▸ hframe, fun k => ?_, hflags⟩
  rw [hreg, BitVec.getLsbD_and, getLsbD_controlWriteMask, Bool.and_comm]

/-- R107: what a write of the flag register leaves of the flags, before `level_eval`. -/
def flagsWritten (b : Bank) (d : Byte) (s : State) : Banked Byte :=
  match s.params.intfWrite with
  | .clearOnZero => s.intf.set b (s.intf.get b &&& d)
  | .ignored => s.intf

theorem flagsWritten_clearOnZero (b : Bank) (d : Byte) {s : State} (h : s.params.intfWrite = .clearOnZero) :
    flagsWritten b d s = s.intf.set b (s.intf.get b &&& d) := by
  simp [flagsWritten, h]

theorem flagsWritten_ignored (b : Bank) (d : Byte) {s : State} (h : s.params.intfWrite = .ignored) :
    flagsWritten b d s = s.intf := by
  simp [flagsWritten, h]

theorem storeIntf_eq (b : Bank) (d : Byte) (s : State) :
    storeIntf b d s = levelEval { s with intf := flagsWritten b d s } := by
  unfold storeIntf flagsWritten
  cases s.params.intfWrite <;> rfl

/-- R107: bit by bit, a flag survives the write where it is written 1, is another bank's, or writes are ignored. -/
theorem pinBit_flagsWritten (b : Bank) (d : Byte) (s : State) (p : Pin) :
    pinBit (flagsWritten b d s) p =
      (flag p s && (d.getLsbD (bitOf p) || bankOf p != b || s.params.intfWrite == .ignored)) := by
  cases hw : s.params.intfWrite with
  | clearOnZero =>
    rw [flagsWritten_clearOnZero b d hw, pinBit_set]
    by_cases hb : bankOf p = b
    · have hignored : (IntfWrite.clearOnZero == .ignored) = false := rfl
      subst hb
      simp [flag, pinBit, hignored]
    · simp [flag, hb]
  | ignored =>
    rw [flagsWritten_ignored b d hw]
    simp [flag]

/-- Settles O17: the write leaves `flagsWritten` and evaluates the level conditions, which `EDGE_TO_REF` leaves without
effect. -/
theorem writeFlagRegister : Obligations.WriteFlagRegister := by
  intro s b d h
  obtain ⟨t, ht, hframe, hflags⟩ := writeTx_evaluates (d := d) h (storeIntf_eq b d s) rfl rfl
  refine ⟨t, (exec_writeIntf b d s).trans ht, hframe, fun hw => ?_, fun hw => ?_, fun he => ?_⟩
  · exact flagsWritten_clearOnZero b d hw ▸ hflags
  · exact flagsWritten_ignored b d hw ▸ hflags
  · have hlvl : t.lvl = s.lvl := by rw [hframe]
    have hparams : t.params = s.params := by rw [hframe]
    obtain ⟨hintf, hcap⟩ := hflags.of_edgeToRef hlvl (hparams ▸ he)
    refine ⟨hcap, fun p => ?_⟩
    rw [flag, hintf]
    exact pinBit_flagsWritten b d s p

end Sys2Proof.Machine

/-! SUPPORT. How a pin's level resolves (R96), which instructions re-resolve it (R97), and the events of the pin environment
(R98 to R100). -/

namespace Sys2Proof.Machine

open Claims (eventOf)

section Determined

variable {s : State} {p : Pin}

/-- R96: nothing drives an output, or what drives it agrees with its latch. -/
theorem determined_output (hdir : pinBit s.iodir p = false)
    (hext : s.ext.get p = .z ∨ s.ext.get p = driveOf (pinBit s.olat p)) :
    determined p s = some (pinBit s.olat p) := by
  rw [determined, if_pos hdir, if_pos hext]

/-- R96: what drives an output contends with its latch. -/
theorem determined_contended (hdir : pinBit s.iodir p = false) (hext : s.ext.get p = driveOf (!pinBit s.olat p)) :
    determined p s = none := by
  have hdrive : ¬(s.ext.get p = .z ∨ s.ext.get p = driveOf (pinBit s.olat p)) := by
    rw [hext]
    cases pinBit s.olat p <;> decide
  rw [determined, if_pos hdir, if_neg hdrive]

/-- R96: an input takes the level it is driven to. -/
theorem determined_drivenInput {v : Bool} (hdir : pinBit s.iodir p = true) (hext : s.ext.get p = driveOf v) :
    determined p s = some v := by
  cases v <;> simp [determined, hdir, hext, driveOf]

/-- R96: an input that nothing drives is high where it is pulled up, and floats otherwise. -/
theorem determined_undrivenInput (hdir : pinBit s.iodir p = true) (hext : s.ext.get p = .z) :
    determined p s = if pinBit s.gppu p then some true else none := by
  simp [determined, hdir, hext]

end Determined

/-- Settles O18: the rows of an output, then those of an input. -/
theorem resolutionRows : Obligations.ResolutionRows := by
  intro s p
  refine ⟨?undriven, ?agreeing, ?contended, ?low, ?high, ?pulledUp, ?floating⟩
  case undriven => exact fun hdir hext => resolve_eq (determined_output hdir (.inl hext))
  case agreeing => exact fun hdir hext => resolve_eq (determined_output hdir (.inr hext))
  case contended => exact determined_contended
  case low => exact fun hdir hext => resolve_eq (determined_drivenInput (v := false) hdir hext)
  case high => exact fun hdir hext => resolve_eq (determined_drivenInput (v := true) hdir hext)
  case pulledUp => exact fun hdir hext hpull => resolve_eq (by rw [determined_undrivenInput hdir hext, if_pos hpull])
  case floating => exact fun hdir hext hpull => by simp [determined_undrivenInput hdir hext, hpull]

/-! ### What re-resolves a pin -/

/-- R97: where the exclusive or of a bank's old byte and the one written marks a pin, its bit changes. -/
theorem ne_pinBit_of_getLsbD_xor {old : Banked Byte} {b : Bank} {d : Byte} {p : Pin} (hb : bankOf p = b)
    (h : (old.get b ^^^ d).getLsbD (bitOf p) = true) : d.getLsbD (bitOf p) ≠ pinBit old p := by
  rw [getLsbD_xor_iff_pinBit_ne old d hb, pinBit_set, if_pos hb] at h
  exact h.symm

/-- R97: a pin is re-resolved by an event on it, or by a write that changes its bit of IODIR, GPPU or OLAT. -/
theorem cause_of_reresolves {i : Instr} {s : State} {p : Pin} (h : reresolves i s p) :
    (∃ v, i = eventOf v p) ∨
      ∃ d, (i = writeIodir (bankOf p) d ∧ d.getLsbD (bitOf p) ≠ pinBit s.iodir p) ∨
        (i = writeGppu (bankOf p) d ∧ d.getLsbD (bitOf p) ≠ pinBit s.gppu p) ∨
        (i = writeOlat (bankOf p) d ∧ d.getLsbD (bitOf p) ≠ pinBit s.olat p) := by
  cases i with
  | evD0 q => exact .inl ⟨.d0, by rw [show p = q from h]; rfl⟩
  | evD1 q => exact .inl ⟨.d1, by rw [show p = q from h]; rfl⟩
  | evZ q => exact .inl ⟨.z, by rw [show p = q from h]; rfl⟩
  | wrIodirA d | wrIodirB d =>
    exact .inr ⟨d, .inl ⟨by rw [h.1]; rfl, ne_pinBit_of_getLsbD_xor h.1 h.2⟩⟩
  | wrGppuA d | wrGppuB d =>
    exact .inr ⟨d, .inr (.inl ⟨by rw [h.1]; rfl, ne_pinBit_of_getLsbD_xor h.1 h.2⟩)⟩
  | wrOlatA d | wrOlatB d =>
    exact .inr ⟨d, .inr (.inr ⟨by rw [h.1]; rfl, ne_pinBit_of_getLsbD_xor h.1 h.2⟩)⟩
  | _ => exact h.elim

/-- R105: the pins one instruction re-resolves are of one bank. -/
theorem bankOf_eq_of_reresolves {i : Instr} {s : State} {p q : Pin} (hp : reresolves i s p) (hq : reresolves i s q) :
    bankOf p = bankOf q := by
  cases i with
  | evD0 r | evD1 r | evZ r => exact congrArg bankOf (Eq.trans hp (Eq.symm hq))
  | wrIodirA d | wrIodirB d | wrGppuA d | wrGppuB d | wrOlatA d | wrOlatB d => exact hp.1.trans hq.1.symm
  | _ => exact hp.elim

/-- Which pins are re-resolved does not depend on the draws made. -/
theorem reresolves_drawn (i : Instr) (s : State) (n : Nat) (p : Pin) :
    reresolves i (s.drawn n) p ↔ reresolves i s p := by
  cases i <;> exact Iff.rfl

/-- R97: an instruction that changes a pin's level re-resolves that pin. -/
theorem reresolves_of_level_ne {i : Instr} {s t : State} {p : Pin} (h : exec i s = .next t)
    (hl : level p t ≠ level p s) : reresolves i s p := by
  cases exec_cases h with
  | reached n u r hu ht =>
    by_contra hp
    rw [← reresolves_drawn i s n] at hp
    exact hl (ht ▸ hu.level hp)
  | missed n ht => exact (hl (ht ▸ rfl)).elim
  | refused r hi ht => exact (hl (ht ▸ rfl)).elim

/-- Settles O20: the level changes at a re-resolution only, and that has its causes. -/
theorem levelChangesOnlyAtResolution : Obligations.LevelChangesOnlyAtResolution :=
  fun _ _ _ _ h hl => cause_of_reresolves (reresolves_of_level_ne h hl)

/-! ### The events -/

theorem exec_eventOf (v : Drive) (p : Pin) (s : State) : exec (eventOf v p) s = .next (drivePin p v s) := by
  cases v <;> rfl

theorem setExt_get_same (s : State) (p : Pin) (v : Drive) : (s.setExt p v).ext.get p = v :=
  Vector.getElem_set_self p.isLt

/-- R98 to R100: an event sets the drive, and changes no other setting. -/
theorem drivePin_same (p : Pin) (v : Drive) (s : State) : SameSetting (s.setExt p v) (drivePin p v s) :=
  (resolvePin_resolved p (s.setExt p v)).same.trans (levelEval_same _)

theorem drivePin_level_other {p q : Pin} (v : Drive) (s : State) (h : q ≠ p) :
    level q (drivePin p v s) = level q s :=
  (levelEval_level _ q).trans ((resolvePin_resolved p (s.setExt p v)).kept q h)

theorem drivePin_level_same {p : Pin} {v : Drive} {s : State} {l : Bool} (h : determined p (s.setExt p v) = some l) :
    level p (drivePin p v s) = l :=
  (levelEval_level _ p).trans ((resolvePin_resolved p (s.setExt p v)).settled p l rfl h)

/-- R98 to R104: the flags an event leaves. -/
theorem drivePin_flagsFollow (p : Pin) (v : Drive) (s : State) : FlagsFollow s.intf s (drivePin p v s) :=
  (resolvePin_resolved p (s.setExt p v)).flagsFollow.of_same rfl rfl

/-- Settles O19: every event runs `drivePin`, which re-resolves the pin and evaluates the level conditions. -/
theorem pinEventResolvesPin : Obligations.PinEventResolvesPin := by
  intro s p v
  refine ⟨drivePin p v s, exec_eventOf v p s, (resolvePin_resolved p (s.setExt p v)).eval_frame,
    fun q hq => drivePin_level_other v s hq, fun l hl => ?_, drivePin_flagsFollow p v s⟩
  rw [(drivePin_same p v s).determined] at hl
  exact drivePin_level_same hl

end Sys2Proof.Machine

/-! SUPPORT. When a flag rises and when it falls (R101 to R108). -/

namespace Sys2Proof.Machine

open Claims (eventOf writeIntf)

/-! ### What raises a flag -/

theorem raises_eq_true_iff {s t : State} {p : Pin} :
    raises s t p = true ↔ (level p t ≠ level p s ∧ fires p (level p t) t = true) ∨ mismatched p t = true := by
  simp [raises]

theorem eligible_of_fires {s : State} {p : Pin} {v : Bool} (h : fires p v s = true) : eligible p s = true := by
  rw [fires, Bool.and_eq_true] at h
  exact h.1

theorem eligible_of_mismatched {s : State} {p : Pin} (h : mismatched p s = true) : eligible p s = true := by
  simp only [mismatched, Bool.and_eq_true] at h
  exact h.1.1.2

/-- R101: only an eligible pin's flag is raised. -/
theorem eligible_of_raises {s t : State} {p : Pin} (h : raises s t p = true) : eligible p t = true := by
  rcases raises_eq_true_iff.1 h with ⟨-, hfires⟩ | hmis
  · exact eligible_of_fires hfires
  · exact eligible_of_mismatched hmis

theorem eligible_eq_true_iff {s : State} {p : Pin} :
    eligible p s = true ↔ pinBit s.gpinten p = true ∧ (s.params.iocOnOutputs = true ∨ pinBit s.iodir p = true) := by
  simp [eligible]

/-- R103: the level condition is not looked at under `EDGE_TO_REF`. -/
theorem mismatched_of_edgeToRef {s : State} (h : s.params.triggerSense = .edgeToRef) (p : Pin) :
    mismatched p s = false := by
  simp [mismatched, h]

/-! ### What an instruction clears -/

/-- R107: the update of a write of the flag register. -/
theorem update_writeIntf_intf (b : Bank) (d : Byte) (s : State) :
    (update (writeIntf b d) s).intf = flagsWritten b d s := by
  cases b <;> cases h : s.params.intfWrite <;> simp [writeIntf, update, flagsWritten, h]

/-- An acknowledging read clears the flags of its bank, a write of the flag register some flags, and no other instruction
clears or sets one before its pins are re-resolved. -/
theorem update_intf_cases (i : Instr) (s : State) :
    (update i s).intf = s.intf ∨
      (∃ b, (i = readReg .gpio b ∨ i = readReg .intcap b) ∧ (update i s).intf = s.intf.set b 0) ∨
      ∃ b d, i = writeIntf b d ∧ (update i s).intf = flagsWritten b d s := by
  cases i with
  | rdGpioA => exact .inr (.inl ⟨.bankA, .inl rfl, rfl⟩)
  | rdGpioB => exact .inr (.inl ⟨.bankB, .inl rfl, rfl⟩)
  | rdIntcapA => exact .inr (.inl ⟨.bankA, .inr rfl, rfl⟩)
  | rdIntcapB => exact .inr (.inl ⟨.bankB, .inr rfl, rfl⟩)
  | wrIntfA d => exact .inr (.inr ⟨.bankA, d, rfl, update_writeIntf_intf .bankA d s⟩)
  | wrIntfB d => exact .inr (.inr ⟨.bankB, d, rfl, update_writeIntf_intf .bankB d s⟩)
  | _ => exact .inl rfl

/-- No instruction sets a flag before its pins are re-resolved. -/
theorem pinBit_update_intf_of_clear (i : Instr) {s : State} {p : Pin} (h : flag p s = false) :
    pinBit (update i s).intf p = false := by
  rcases update_intf_cases i s with hi | ⟨b, -, hi⟩ | ⟨b, d, -, hi⟩ <;> rw [hi]
  · exact h
  · rw [pinBit_set]
    split
    · exact BitVec.getLsbD_zero
    · exact h
  · rw [pinBit_flagsWritten, h, Bool.false_and]

/-- R106, R107: an instruction that clears a flag is an acknowledge of its bank or a clearing write of its bit. -/
theorem pinBit_update_intf_of_set (i : Instr) {s : State} {p : Pin} (h : flag p s = true) :
    pinBit (update i s).intf p = true ∨ i = readReg .gpio (bankOf p) ∨ i = readReg .intcap (bankOf p) ∨
      ∃ d, i = writeIntf (bankOf p) d ∧ d.getLsbD (bitOf p) = false ∧ s.params.intfWrite = .clearOnZero := by
  rcases update_intf_cases i s with hi | ⟨b, hread, hi⟩ | ⟨b, d, hwrite, hi⟩ <;> rw [hi]
  · exact .inl h
  · by_cases hb : bankOf p = b
    · subst hb
      exact .inr (hread.imp_right .inl)
    · exact .inl (by rwa [pinBit_set, if_neg hb])
  · by_cases hkeep : pinBit (flagsWritten b d s) p = true
    · exact .inl hkeep
    · simp only [pinBit_flagsWritten, h, Bool.true_and, Bool.or_eq_true, not_or, Bool.not_eq_true, bne_eq_false_iff_eq]
        at hkeep
      obtain ⟨⟨hbit, rfl⟩, hmode⟩ := hkeep
      refine .inr (.inr (.inr ⟨d, hwrite, hbit, ?_⟩))
      cases hw : s.params.intfWrite with
      | clearOnZero => rfl
      | ignored => rw [hw] at hmode; cases hmode

/-! ### The flags of an instruction -/

/-- R104: a flag that rises is one the instruction raises, with the level captured. -/
theorem raises_of_flag_rises {i : Instr} {s t : State} {p : Pin} (h : exec i s = .next t) (hs : flag p s = false)
    (ht : flag p t = true) : raises s t p = true ∧ capture p t = level p t := by
  cases exec_cases h with
  | reached n u r hu hturn =>
    have hbase : pinBit (update i (s.drawn n)).intf p = false := pinBit_update_intf_of_clear i hs
    have hfollow : FlagsFollow (update i (s.drawn n)).intf s t := hturn ▸ hu.flagsFollow
    obtain ⟨hflag, hcap⟩ := hfollow p
    rw [ht, hbase, Bool.false_or] at hflag
    exact ⟨hflag.symm, hcap.trans (if_pos ⟨hbase, hflag.symm⟩)⟩
  | missed n hturn =>
    subst hturn
    exact absurd (hs.symm.trans ht) Bool.false_ne_true
  | refused r hi hturn =>
    subst hturn
    exact absurd (hs.symm.trans ht) Bool.false_ne_true

/-- Settles O23: the flag is one the instruction raises, and that takes an eligible pin. -/
theorem risingFlagIsEligible : Obligations.RisingFlagIsEligible := by
  intro i s t p h hs ht
  obtain ⟨hraises, hcap⟩ := raises_of_flag_rises h hs ht
  obtain ⟨henabled, hdir⟩ := eligible_eq_true_iff.1 (eligible_of_raises hraises)
  exact ⟨henabled, hdir, hcap, (raises_eq_true_iff.1 hraises).imp_left And.left⟩

/-- R108: a flag of `base` stays, and its capture with it. -/
theorem FlagsFollow.keeps {base : Banked Byte} {s t : State} {p : Pin} (h : FlagsFollow base s t)
    (hp : pinBit base p = true) : flag p t = true ∧ capture p t = capture p s := by
  obtain ⟨hflag, hcap⟩ := h p
  exact ⟨by rw [hflag, hp, Bool.true_or], hcap.trans (if_neg (by simp [hp]))⟩

/-- Settles O24: a flag the instruction's update leaves stays to its end, and one it does not leave was cleared. -/
theorem flagStaysUntilAcknowledged : Obligations.FlagStaysUntilAcknowledged := by
  intro i s t p h hs
  cases exec_cases h with
  | reached n u r hu ht =>
    refine (pinBit_update_intf_of_set i (s := s.drawn n) hs).imp_left fun hp => ?_
    exact ht ▸ hu.flagsFollow.keeps hp
  | missed n ht => exact .inl (ht ▸ ⟨hs, rfl⟩)
  | refused r hi ht => exact .inl (ht ▸ ⟨hs, rfl⟩)

/-- R102, R103: under `EDGE_TO_REF` a flag rises only where the level changed. -/
theorem level_ne_of_flag_rises {i : Instr} {s t : State} {p : Pin} (he : s.params.triggerSense = .edgeToRef)
    (h : exec i s = .next t) (hs : flag p s = false) (ht : flag p t = true) : level p t ≠ level p s := by
  rcases raises_eq_true_iff.1 (raises_of_flag_rises h hs ht).1 with ⟨hne, -⟩ | hmis
  · exact hne
  · rw [mismatched_of_edgeToRef (exec_params h ▸ he) p] at hmis
    cases hmis

/-- Settles O25: both flags' pins changed their level, so the instruction re-resolved both. -/
theorem oneBankRaisedPerStep : Obligations.OneBankRaisedPerStep := by
  intro i s t p q he h hp hp' hq hq'
  exact bankOf_eq_of_reresolves (reresolves_of_level_ne h (level_ne_of_flag_rises he h hp hp'))
    (reresolves_of_level_ne h (level_ne_of_flag_rises he h hq hq'))

/-! ### The trigger modes -/

/-- R102: under `EDGE_TO_REF` an enabled input pin fires in compare-to-previous mode, or at its reference level. -/
theorem fires_of_enabledInput {s : State} {p : Pin} (he : s.params.triggerSense = .edgeToRef)
    (hdir : pinBit s.iodir p = true) (hen : pinBit s.gpinten p = true) (v : Bool) :
    fires p v s = (!pinBit s.intcon p || v == pinBit s.defval p) := by
  simp [fires, eligible, he, hdir, hen]

/-- R98, R99, R102, R104: under `EDGE_TO_REF` an event that drives an enabled input pin, whose flag is clear, to the level
it did not have. -/
theorem edge_on_enabledInput {s : State} {p : Pin} {v : Bool} (he : s.params.triggerSense = .edgeToRef)
    (hdir : pinBit s.iodir p = true) (hen : pinBit s.gpinten p = true) (hs : flag p s = false) (hl : level p s = !v) :
    ∃ t, exec (eventOf (driveOf v) p) s = .next t ∧ flag p t = (!pinBit s.intcon p || v == pinBit s.defval p) ∧
      (flag p t = true → capture p t = v) := by
  have hsame := drivePin_same p (driveOf v) s
  have hlevel : level p (drivePin p (driveOf v) s) = v :=
    drivePin_level_same (determined_drivenInput hdir (setExt_get_same s p (driveOf v)))
  have hexec := exec_eventOf (driveOf v) p s
  refine ⟨_, hexec, ?_, fun ht => (raises_of_flag_rises hexec hs ht).2.trans hlevel⟩
  have hmis : mismatched p (drivePin p (driveOf v) s) = false := mismatched_of_edgeToRef (hsame.params ▸ he) p
  have hfires : fires p v (drivePin p (driveOf v) s) = (!pinBit s.intcon p || v == pinBit s.defval p) :=
    (hsame.fires p v).trans (fires_of_enabledInput (s := s.setExt p (driveOf v)) he hdir hen v)
  have hbase : pinBit s.intf p = false := hs
  rw [(drivePin_flagsFollow p (driveOf v) s p).1, hbase, raises, hlevel, hl, hmis, hfires]
  cases v <;> simp

/-- Settles O22: a rising and a falling edge. -/
theorem triggerModesUnderEdge : Obligations.TriggerModesUnderEdge := by
  intro s p he hdir hen hs
  constructor <;> intro hl
  · simpa [eventOf, driveOf] using edge_on_enabledInput (v := true) he hdir hen hs hl
  · simpa [eventOf, driveOf] using edge_on_enabledInput (v := false) he hdir hen hs hl

end Sys2Proof.Machine

/-! SUPPORT. `level_eval` as the spec's loop and as one formula over a bank's bytes (R103), and the interrupt outputs (R109,
R110). -/

namespace Sys2Proof.Machine

open Claims (evalStep)

/-- R103, R104: one turn of the spec's loop is `set_flag` where the pin's level condition holds. -/
theorem evalStep_eq_latchFlag (s : State) (p : Pin) : evalStep s p = s.latchFlag (mismatched p s) p (level p s) := by
  have hcond : (s.params.triggerSense = .levelMismatch ∧ eligible p s = true ∧ pinBit s.intcon p = true ∧
      level p s ≠ pinBit s.defval p ∧ flag p s = false) ↔ (mismatched p s && !pinBit s.intf p) = true := by
    simp [mismatched, flag, and_assoc]
  unfold evalStep State.latchFlag
  by_cases h : (mismatched p s && !pinBit s.intf p) = true
  · simp only [if_pos h, if_pos (hcond.2 h)]
  · simp only [if_neg h, if_neg (mt hcond.1 h)]

/-- No turn of the loop changes a level condition, which reads no flag and no capture. -/
theorem mismatched_evalStep (s : State) (p q : Pin) : mismatched q (evalStep s p) = mismatched q s := by
  rw [evalStep_eq_latchFlag]
  rfl

theorem level_evalStep (s : State) (p q : Pin) : level q (evalStep s p) = level q s := by
  rw [evalStep_eq_latchFlag]
  rfl

/-- The loop writes flags and captures, nothing else. -/
theorem foldl_evalStep_frame (l : List Pin) (s : State) :
    l.foldl evalStep s = { s with intf := (l.foldl evalStep s).intf, cap := (l.foldl evalStep s).cap } := by
  induction l generalizing s with
  | nil => rfl
  | cons p l ih =>
    rw [List.foldl_cons, ih, evalStep_eq_latchFlag]
    rfl

theorem flag_foldl_evalStep (l : List Pin) (s : State) (q : Pin) :
    flag q (l.foldl evalStep s) = (flag q s || (decide (q ∈ l) && mismatched q s)) := by
  induction l generalizing s with
  | nil => simp
  | cons p l ih =>
    rw [List.foldl_cons, ih, mismatched_evalStep, evalStep_eq_latchFlag, flag_latchFlag]
    by_cases hq : q = p
    · subst hq
      cases flag q s <;> cases mismatched q s <;> simp
    · simp [hq]

theorem capture_foldl_evalStep (l : List Pin) (s : State) (q : Pin) :
    capture q (l.foldl evalStep s) =
      if q ∈ l ∧ flag q s = false ∧ mismatched q s = true then level q s else capture q s := by
  induction l generalizing s with
  | nil => simp
  | cons p l ih =>
    rw [List.foldl_cons, ih, mismatched_evalStep, level_evalStep, evalStep_eq_latchFlag, flag_latchFlag,
      capture_latchFlag]
    by_cases hq : q = p
    · subst hq
      cases flag q s <;> cases mismatched q s <;> simp
    · simp [hq]

/-- Settles O26: both leave all but the flags and the captures, and agree on every pin's. -/
theorem levelEvalIsTheLoop : Obligations.LevelEvalIsTheLoop := by
  intro s
  have hintf : (levelEval s).intf = (allPins.foldl evalStep s).intf := by
    refine banked_ext fun p => ?_
    have hloop := flag_foldl_evalStep allPins s p
    rw [decide_eq_true (mem_allPins p), Bool.true_and] at hloop
    exact (flag_levelEval s p).trans hloop.symm
  have hcap : (levelEval s).cap = (allPins.foldl evalStep s).cap := by
    refine banked_ext fun p => ?_
    have hloop := capture_foldl_evalStep allPins s p
    simp only [mem_allPins, true_and] at hloop
    exact (capture_levelEval s p).trans hloop.symm
  rw [levelEval_frame, foldl_evalStep_frame, hintf, hcap]

/-- R101: the byte of a bank that marks the pins whose direction lets them trigger. -/
theorem getLsbD_triggerDirections (s : State) (b : Bank) {k : Nat} (hk : k < 8) :
    (if s.params.iocOnOutputs then 0xFF else s.iodir.get b : Byte).getLsbD k =
      (s.params.iocOnOutputs || (s.iodir.get b).getLsbD k) := by
  cases s.params.iocOnOutputs
  · rfl
  · have hall : (0xFF : Byte) = BitVec.allOnes 8 := rfl
    rw [if_pos rfl, hall, BitVec.getLsbD_allOnes, decide_eq_true hk, Bool.true_or]

/-- Settles O27: bit `k` of bank `b` is the flag of pin `pinOf b k`, which is set where the pin's level condition holds. -/
theorem levelEvalBitwise : Obligations.LevelEvalBitwise := by
  intro s b hsense
  refine byte_ext fun k hk => ?_
  have hflag := flag_levelEval s (pinOf b ⟨k, hk⟩)
  simp only [flag, level, mismatched, eligible, pinBit_pinOf, hsense] at hflag
  rw [hflag]
  simp only [beq_self_eq_true, Bool.true_and, Bool.bne_eq_xor, BitVec.getLsbD_or, BitVec.getLsbD_and, BitVec.getLsbD_xor,
    getLsbD_triggerDirections s b hk]
  ac_rfl

/-- R109: with the outputs of the banks apart, each shows its own bank's flags. -/
theorem intActive_apart {s : State} (h : s.iocon.getLsbD 6 = false) (b : Bank) :
    intActive b s = true ↔ s.intf.get b ≠ 0 := by
  rw [intActive, if_neg (Bool.eq_false_iff.1 h), bne_iff_ne]

/-- R109: mirrored, both show the flags of both banks. -/
theorem intActive_mirrored {s : State} (h : s.iocon.getLsbD 6 = true) (b : Bank) :
    intActive b s = true ↔ s.intf.a ≠ 0 ∨ s.intf.b ≠ 0 := by
  rw [intActive, if_pos h, Bool.or_eq_true, bne_iff_ne, bne_iff_ne]

/-- R110: an open-drain output pulls low or lets go. -/
theorem intDrive_openDrain {s : State} (h : s.iocon.getLsbD 2 = true) (b : Bank) :
    intDrive b s = if intActive b s then .d0 else .z :=
  if_pos h

/-- R110: a push-pull output has the polarity's level while it is active, and the other level else. -/
theorem intDrive_pushPull {s : State} (h : s.iocon.getLsbD 2 = false) (b : Bank) :
    intDrive b s = driveOf (intActive b s == s.iocon.getLsbD 1) :=
  if_neg (Bool.eq_false_iff.1 h)

/-- Settles O28: the two settings of each rule, and the two activities of a push-pull output. -/
theorem interruptOutputDrive : Obligations.InterruptOutputDrive := by
  intro s b
  refine ⟨fun h => intActive_apart h b, fun h => intActive_mirrored h b, fun h => intDrive_openDrain h b,
    fun h hactive => ?_, fun h hactive => ?_⟩
  all_goals
    rw [intDrive_pushPull h, hactive]
    cases s.iocon.getLsbD 1 <;> rfl

end Sys2Proof.Machine

/-! SUPPORT. One move of a thread, case by case (R44, R45, R113 to R118), and the operations that end before or at a
transaction. -/

namespace Sys2Proof.Machine

/-! ### What a move does -/

section Move

variable {n : Nat} {s t : State} {x : Thread} {op : DriverOp} {rest : List DriverOp} {moved : List Byte} {v : Byte}

theorem moveThread_start (hx : s.threads[n]? = some x) (hprogram : x.program = op :: rest) (hphase : x.phase = .start) :
    moveThread n s = .next (beginOp n x op s) := by
  simp [moveThread, hx, hprogram, hphase]

/-- R45: a thread in the middle of an operation issues the operation's next transaction. -/
theorem moveThread_running {i : Instr} (hx : s.threads[n]? = some x) (hprogram : x.program = op :: rest)
    (hphase : x.phase = .running moved) (hi : op.next moved = .issue i) (ht : exec i s = .next t) :
    moveThread n s = .next (afterTransaction n x op moved t) := by
  simp [moveThread, hx, hprogram, hphase, hi, ht]

/-- R112, R113: the operation is one that checks the handle first. -/
def ChecksHandle (op : DriverOp) : Prop := op ≠ .closeDriver ∧ ∀ a path, op ≠ .openDriver a path

/-- R113: an operation that checks the handle finds it not open. -/
theorem beginOp_notOpened (hop : ChecksHandle op) (hs : s.handle ≠ .opened) :
    beginOp n x op s = s.setThread n (x.finish (.err .openFailure)) := by
  cases op with
  | openDriver a path => exact absurd rfl (hop.2 a path)
  | closeDriver => exact absurd rfl hop.1
  | _ => exact if_neg hs

/-- R114: an operation with an invalid pin index on an open handle. -/
theorem beginOp_pinError {r : OpResult} (hs : s.handle = .opened) (hr : op.pinError = some r) :
    beginOp n x op s = s.setThread n (x.finish r) := by
  cases op with
  | openDriver _ _ | closeDriver => cases hr
  | _ => simp [beginOp, hs, hr]

/-- R113, R114: an operation that passes both checks. -/
theorem beginOp_opened (hop : ChecksHandle op) (hs : s.handle = .opened) (hr : op.pinError = none) :
    beginOp n x op s = s.setThread n (x.goOn []) := by
  cases op with
  | openDriver a path => exact absurd rfl (hop.2 a path)
  | closeDriver => exact absurd rfl hop.1
  | _ => simp [beginOp, hs, hr]

theorem afterTransaction_failed (ht : t.reply = .failed) : afterTransaction n x op moved t = abortOp n x op t := by
  simp [afterTransaction, ht]

/-- R36: the byte the transaction moved joins those moved before. -/
theorem afterTransaction_moved (ht : t.reply = .value v ∨ t.reply = .written v) :
    afterTransaction n x op moved t = advanceOp n x op (moved ++ [v]) t := by
  rcases ht with ht | ht <;> simp [afterTransaction, ht]

/-- R115: outside `open` a transaction that did not complete ends the operation. -/
theorem abortOp_notOpen (hop : ∀ a path, op ≠ .openDriver a path) :
    abortOp n x op t = t.setThread n (x.finish (.err .transactionFailure)) := by
  cases op with
  | openDriver a path => exact absurd rfl (hop a path)
  | _ => rfl

theorem finish_eq {r : OpResult} (hprogram : x.program = op :: rest) :
    x.finish r = ⟨rest, .start, x.results ++ [r]⟩ := by
  simp [Thread.finish, hprogram]

end Move

/-! ### Operations that end at a check or a failure -/

/-- Settles O43: the check of the handle comes first. -/
theorem closedHandleFailsFast : Obligations.ClosedHandleFailsFast := by
  intro s n x op rest hx hprogram hphase hs hclose hopen
  rw [moveThread_start hx hprogram hphase, beginOp_notOpened ⟨hclose, hopen⟩ hs, finish_eq hprogram]
  rfl

theorem validPin_eq_false {p : Int} (h : p < 0 ∨ 15 < p) : validPin p = false :=
  decide_eq_false (by omega)

/-- Settles O44: the check of the pin index comes next, with the six results of R114. -/
theorem invalidPinIssuesNothing : Obligations.InvalidPinIssuesNothing := by
  intro s n x rest p hx hphase hs hp m v e c g opr hopr hprogram
  have hvalid := validPin_eq_false hp
  have herror : opr.1.pinError = some opr.2 := by
    simp only [List.mem_cons, List.not_mem_nil, or_false] at hopr
    rcases hopr with rfl | rfl | rfl | rfl | rfl | rfl <;> simp [DriverOp.pinError, hvalid]
  rw [moveThread_start hx hprogram hphase, beginOp_pinError hs herror, finish_eq hprogram]
  rfl

/-- Settles O45: the transaction's failure is looked at in the move that issued it. -/
theorem failedTransactionAborts : Obligations.FailedTransactionAborts := by
  intro s t n x op rest moved i hx hprogram hphase hi ht hfailed
  rw [moveThread_running hx hprogram hphase hi ht, afterTransaction_failed hfailed]
  constructor
  · intro hop
    rw [abortOp_notOpen hop, finish_eq hprogram]
    rfl
  · rintro a path rfl
    rw [abortOp, finish_eq hprogram]
    rfl

/-- R118: a thread between operations has left its scope. -/
theorem leave_eq {x : Thread} (hphase : x.phase = .start) : x.leave = ⟨[], .start, x.results⟩ := by
  rw [Thread.leave, hphase]

/-- Settles O60: between operations the thread releases the transport, and in the middle of one it does nothing. -/
theorem scopeEndReleases : Obligations.ScopeEndReleases := by
  intro s n x rest hagenda hx
  have hx : ({ s with agenda := rest } : State).threads[n]? = some x := hx
  rw [step_eq_serve hagenda, serve]
  constructor
  · intro hphase
    rw [leaveScope_start hx hphase, leave_eq hphase]
    rfl
  · intro moved hphase
    rw [leaveScope_running hx hphase]

end Sys2Proof.Machine

/-! SUPPORT. That no move of a thread is refused (R85, R123): a read-modify-write of the control register writes back bit 7 as
it read it, as 0. -/

namespace Sys2Proof.Machine

/-! ### The transactions on the control register -/

/-- R134: only an ill-formed instruction is refused. -/
theorem exec_refused {i : Instr} {s t : State} (h : exec i s = .next t) (hi : i.WellFormed) : t.refused = s.refused := by
  cases exec_cases h with
  | reached n u r hu ht => simp [ht, hu.refused]
  | missed n ht => simp [ht]
  | refused r hill ht => exact absurd (hill.symm.trans hi) Bool.false_ne_true

theorem exec_controlReserved {i : Instr} {s t : State} (h : exec i s = .next t) (hs : ControlReserved s) :
    ControlReserved t := by
  cases exec_cases h with
  | reached n u r hu ht => exact ht ▸ hu.controlReserved (s := s.drawn n) hs
  | missed n ht => exact ht ▸ hs
  | refused r hill ht => exact ht ▸ hs

theorem HostOnly.controlReserved {s t : State} (h : HostOnly s t) (hs : ControlReserved s) : ControlReserved t := by
  unfold HostOnly at h
  rw [h]
  exact hs

/-- R85: a read of the control register gives bit 7 as 0, or no value. -/
theorem rdIocon_moved_clear {s t : State} {v : Byte} (h : exec .rdIocon s = .next t) (hs : ControlReserved s)
    (hv : t.reply = .value v ∨ t.reply = .written v) : v.getLsbD 7 = false := by
  rcases readTx_cases controlRead s with hc | hc <;> cases hc.symm.trans h
  · have hread : v = (controlRead s).1 := by simpa [eq_comm] using hv
    rw [hread, controlRead_getLsbD s (by decide)]
    exact hs.1
  · simp at hv

/-- R36: a write of the control register that is not refused moves the byte written, or none. -/
theorem wrIocon_moved {s t : State} {d v : Byte} (h : exec (.wrIocon d) s = .next t) (hd : d.getLsbD 7 = false)
    (hv : t.reply = .value v ∨ t.reply = .written v) : v = d := by
  rw [exec_wrIocon hd] at h
  rcases writeTx_cases d (storeIocon d) s with hc | hc | hc <;> cases hc.symm.trans h
  · simpa [eq_comm] using hv
  all_goals simp at hv

/-! ### The operations on the control register -/

theorem getLsbD_putBit_ne (v : Byte) {j k : Nat} (bit : Bool) (hj : j < 8) (hjk : j ≠ k) :
    (putBit v k bit).getLsbD j = v.getLsbD j :=
  (getLsbD_putBit v k bit hj).trans (if_neg hjk)

theorem outputBits_getLsbD_seven (config : OutputConfig) (c : Byte) : (outputBits config c).getLsbD 7 = c.getLsbD 7 := by
  have hkeep (v : Byte) (bit : Bool) {k : Nat} (hk : 7 ≠ k) : (putBit v k bit).getLsbD 7 = v.getLsbD 7 :=
    getLsbD_putBit_ne v bit (by decide) hk
  rw [outputBits, hkeep _ _ (by decide), hkeep _ _ (by decide), hkeep _ _ (by decide)]

/-- R123, R130, R131: such an operation reads the control register and writes it back with bit 7 as read. -/
theorem next_of_modifiesControl {op : DriverOp} (h : modifiesControl op = true) :
    ∃ f : Byte → Byte, (∀ c, (f c).getLsbD 7 = c.getLsbD 7) ∧ ∀ moved, op.next moved = modifyIocon f moved := by
  cases op with
  | configureInterruptOutput config => exact ⟨_, outputBits_getLsbD_seven config, fun _ => rfl⟩
  | setSlewRateEnabled enabled => exact ⟨_, fun c => getLsbD_putBit_ne c _ (by decide) (by decide), fun _ => rfl⟩
  | setSequentialOperationEnabled enabled => exact ⟨_, fun c => getLsbD_putBit_ne c _ (by decide) (by decide), fun _ => rfl⟩
  | _ => cases h

/-- R123: what such an operation issues, having read bit 7 as 0. -/
theorem issue_of_modifiesControl {op : DriverOp} {moved : List Byte} {i : Instr} (h : modifiesControl op = true)
    (hmoved : ∀ c ∈ moved, c.getLsbD 7 = false) (hi : op.next moved = .issue i) :
    i = .rdIocon ∨ ∃ d, i = .wrIocon d ∧ d.getLsbD 7 = false := by
  obtain ⟨f, hf, hnext⟩ := next_of_modifiesControl h
  rw [hnext] at hi
  match moved with
  | [] =>
    injection hi with hi
    exact .inl hi.symm
  | [c] =>
    injection hi with hi
    exact .inr ⟨f c, hi.symm, (hf c).trans (hmoved c List.mem_cons_self)⟩
  | _ :: _ :: _ => cases hi

/-! ### The other operations -/

@[simp] theorem wellFormed_readReg (k : Kind) (b : Bank) : (readReg k b).wellFormed = true := by
  cases k <;> cases b <;> rfl

@[simp] theorem wellFormed_writeIodir (b : Bank) (d : Byte) : (writeIodir b d).wellFormed = true := by cases b <;> rfl
@[simp] theorem wellFormed_writeGppu (b : Bank) (d : Byte) : (writeGppu b d).wellFormed = true := by cases b <;> rfl
@[simp] theorem wellFormed_writeOlat (b : Bank) (d : Byte) : (writeOlat b d).wellFormed = true := by cases b <;> rfl
@[simp] theorem wellFormed_writeGpinten (b : Bank) (d : Byte) : (writeGpinten b d).wellFormed = true := by cases b <;> rfl
@[simp] theorem wellFormed_writeIntcon (b : Bank) (d : Byte) : (writeIntcon b d).wellFormed = true := by cases b <;> rfl
@[simp] theorem wellFormed_writeDefval (b : Bank) (d : Byte) : (writeDefval b d).wellFormed = true := by cases b <;> rfl

/-- R86: an operation that does not modify the control register writes none. -/
theorem wellFormed_of_not_modifiesControl {op : DriverOp} {moved : List Byte} {i : Instr} (h : modifiesControl op = false)
    (hi : op.next moved = .issue i) : i.WellFormed := by
  unfold Instr.WellFormed
  cases op with
  | closeDriver => cases hi
  | configureInterruptOutput _ | setSlewRateEnabled _ | setSequentialOperationEnabled _ => cases h
  | openDriver _ _ =>
    simp only [DriverOp.next, openNext] at hi
    split at hi <;> cases hi <;> rfl
  | setPinMode _ _ =>
    simp only [DriverOp.next, setPinModeNext] at hi
    split at hi <;> cases hi <;> simp
  | writePin _ _ =>
    simp only [DriverOp.next, writePinNext] at hi
    split at hi <;> cases hi <;> simp
  | readPin _ =>
    simp only [DriverOp.next, readPinNext] at hi
    split at hi <;> cases hi
    simp
  | setInterruptEnabled _ _ =>
    simp only [DriverOp.next, setInterruptEnabledNext] at hi
    split at hi <;> cases hi <;> simp
  | setInterruptTriggerMode _ _ =>
    simp only [DriverOp.next, setInterruptTriggerModeNext] at hi
    split at hi <;> cases hi <;> simp
  | getInterruptFlags _ | getInterruptPins _ | isInterruptOnPin _ _ =>
    simp only [DriverOp.next, flagsNext] at hi
    repeat' split at hi
    all_goals cases hi <;> rfl
  | getInterruptCapture _ =>
    simp only [DriverOp.next, captureNext] at hi
    split at hi
    iterate 4
      cases hi
      rfl
    split at hi <;> cases hi
    simp
  | clearAllInterrupts =>
    simp only [DriverOp.next, clearAllNext] at hi
    split at hi <;> cases hi <;> rfl

/-- R123: a thread issues a refused instruction in no operation. -/
theorem wellFormed_of_issue {x : Thread} {op : DriverOp} {rest : List DriverOp} {moved : List Byte} {i : Instr}
    (hx : ControlReadClear x) (hprogram : x.program = op :: rest) (hphase : x.phase = .running moved)
    (hi : op.next moved = .issue i) : i.WellFormed := by
  cases hop : modifiesControl op with
  | false => exact wellFormed_of_not_modifiesControl hop hi
  | true =>
    rcases issue_of_modifiesControl hop (fun c => hx op rest moved c hprogram hop hphase) hi with rfl | ⟨d, rfl, hd⟩
    · rfl
    · rw [Instr.WellFormed, Instr.wellFormed, hd]
      rfl

/-! ### The threads after a move -/

/-- Everything a move can do to the machine: nothing; begin an operation; return from one with nothing left to issue; issue
a transaction. -/
inductive Moved (n : Nat) (s t : State) : Prop where
  | idle (ht : t = s)
  | began (x : Thread) (op : DriverOp) (rest : List DriverOp) (hx : s.threads[n]? = some x)
      (hprogram : x.program = op :: rest) (ht : t = beginOp n x op s)
  | returned (x : Thread) (r : OpResult) (ht : t = s.setThread n (x.finish r))
  | issued (x : Thread) (op : DriverOp) (rest : List DriverOp) (moved : List Byte) (i : Instr) (u : State)
      (hx : s.threads[n]? = some x) (hprogram : x.program = op :: rest) (hphase : x.phase = .running moved)
      (hi : op.next moved = .issue i) (hu : exec i s = .next u) (ht : t = afterTransaction n x op moved u)

theorem moveThread_moved {n : Nat} {s t : State} (h : moveThread n s = .next t) : Moved n s t := by
  unfold moveThread at h
  split at h
  · injection h with h
    exact .idle h.symm
  · rename_i x hx
    split at h
    · injection h with h
      exact .idle h.symm
    · rename_i op rest hprogram
      split at h
      · injection h with h
        exact .began x op rest hx hprogram h.symm
      · rename_i moved hphase
        split at h
        · injection h with h
          exact .returned x _ h.symm
        · rename_i i hi
          obtain ⟨u, hu⟩ := exec_completes i s
          rw [hu] at h
          injection h with h
          exact .issued x op rest moved i u hx hprogram hphase hi hu h.symm

theorem controlReadClear_finish (x : Thread) (r : OpResult) : ControlReadClear (x.finish r) := by
  intro op rest moved c hprogram hop hphase
  cases hphase

theorem controlReadClear_goOn {x : Thread} {op : DriverOp} {rest : List DriverOp} {moved : List Byte}
    (hprogram : x.program = op :: rest) (hmoved : modifiesControl op = true → ∀ c ∈ moved, c.getLsbD 7 = false) :
    ControlReadClear (x.goOn moved) := by
  intro op' rest' moved' c hprogram' hop hphase hc
  cases hprogram.symm.trans hprogram'
  cases hphase
  exact hmoved hop c hc

/-- A move that leaves thread `n` as `y` keeps the others. -/
theorem controlReadClear_set {s t : State} {n : Nat} {y : Thread} (hs : ∀ x ∈ s.threads, ControlReadClear x)
    (hy : ControlReadClear y) (ht : t.threads = s.threads.set n y) : ∀ x ∈ t.threads, ControlReadClear x := by
  intro x hx
  rw [ht] at hx
  rcases List.mem_or_eq_of_mem_set hx with hx | rfl
  · exact hs x hx
  · exact hy

/-- R113: an operation that begins has moved nothing. -/
theorem beginOp_threads (n : Nat) (x : Thread) (op : DriverOp) (s : State) :
    (∃ r, (beginOp n x op s).threads = s.threads.set n (x.finish r)) ∨
      (beginOp n x op s).threads = s.threads.set n (x.goOn []) := by
  cases op with
  | openDriver a path =>
    simp only [beginOp]
    split
    · exact .inr rfl
    · exact .inl ⟨_, rfl⟩
  | closeDriver => exact .inl ⟨.ok, rfl⟩
  | _ =>
    simp only [beginOp]
    split
    · split
      · exact .inl ⟨_, rfl⟩
      · exact .inr rfl
    · exact .inl ⟨_, rfl⟩

theorem advanceOp_threads (n : Nat) (x : Thread) (op : DriverOp) (moved : List Byte) (s : State) :
    (∃ r, (advanceOp n x op moved s).threads = s.threads.set n (x.finish r)) ∨
      (advanceOp n x op moved s).threads = s.threads.set n (x.goOn moved) := by
  unfold advanceOp
  split
  · exact .inl ⟨_, rfl⟩
  · exact .inr rfl

theorem abortOp_threads (n : Nat) (x : Thread) (op : DriverOp) (s : State) :
    ∃ r, (abortOp n x op s).threads = s.threads.set n (x.finish r) := by
  cases op <;> exact ⟨_, rfl⟩

/-- R36, R115: after a transaction the operation has returned, or waits with the byte it moved. -/
theorem afterTransaction_threads (n : Nat) (x : Thread) (op : DriverOp) (moved : List Byte) (s : State) :
    (∃ r, (afterTransaction n x op moved s).threads = s.threads.set n (x.finish r)) ∨
      ∃ v, (s.reply = .value v ∨ s.reply = .written v) ∧
        (afterTransaction n x op moved s).threads = s.threads.set n (x.goOn (moved ++ [v])) := by
  cases hr : s.reply with
  | value v | written v =>
    rw [afterTransaction_moved (v := v) (by simp [hr])]
    exact (advanceOp_threads ..).imp_right fun h => ⟨v, by simp, h⟩
  | failed | refused _ | idle =>
    simp only [afterTransaction, hr]
    exact .inl (abortOp_threads ..)

/-- R85, R123: the transaction of a thread whose bytes read the control register with bit 7 as 0 moves such a byte again. -/
theorem moved_clear {x : Thread} {op : DriverOp} {rest : List DriverOp} {moved : List Byte} {i : Instr} {s u : State}
    {v : Byte} (hx : ControlReadClear x) (hprogram : x.program = op :: rest) (hphase : x.phase = .running moved)
    (hi : op.next moved = .issue i) (hu : exec i s = .next u) (hs : ControlReserved s)
    (hv : u.reply = .value v ∨ u.reply = .written v) (hop : modifiesControl op = true) :
    ∀ c ∈ moved ++ [v], c.getLsbD 7 = false := by
  have hmoved : ∀ c ∈ moved, c.getLsbD 7 = false := fun c => hx op rest moved c hprogram hop hphase
  have hlast : v.getLsbD 7 = false := by
    rcases issue_of_modifiesControl hop hmoved hi with rfl | ⟨d, rfl, hd⟩
    · exact rdIocon_moved_clear hu hs hv
    · rw [wrIocon_moved hu hd hv, hd]
  intro c hc
  rcases List.mem_append.1 hc with hc | hc
  · exact hmoved c hc
  · rwa [List.mem_singleton.1 hc]

/-- Settles O42: a move issues a well-formed instruction if it issues one, and a byte it reads from the control register, or
writes to it, has bit 7 clear. -/
theorem driverIsNeverRefused : Obligations.DriverIsNeverRefused := by
  intro s t n f hs hthreads h
  have hs : ControlReserved (s.setFate f) := hs
  cases moveThread_moved (s := s.setFate f) h with
  | idle ht => exact ht ▸ ⟨rfl, hs, hthreads⟩
  | began x op rest hx hprogram ht =>
    have hhost : HostOnly (s.setFate f) t := ht ▸ beginOp_hostOnly ..
    refine ⟨hhost.refused, hhost.controlReserved hs, ?_⟩
    rcases beginOp_threads n x op (s.setFate f) with ⟨r, hr⟩ | hr <;> rw [← ht] at hr
    · exact controlReadClear_set hthreads (controlReadClear_finish x r) hr
    · exact controlReadClear_set hthreads (controlReadClear_goOn hprogram (by simp)) hr
  | returned x r ht => exact ht ▸ ⟨rfl, hs, controlReadClear_set hthreads (controlReadClear_finish x r) rfl⟩
  | issued x op rest moved i u hx hprogram hphase hi hu ht =>
    have hclear : ControlReadClear x := hthreads x (List.mem_of_getElem? hx)
    have hhost : HostOnly u t := ht ▸ afterTransaction_hostOnly ..
    refine ⟨hhost.refused.trans (exec_refused (s := s.setFate f) hu (wellFormed_of_issue hclear hprogram hphase hi)),
      hhost.controlReserved (exec_controlReserved hu hs), ?_⟩
    rcases afterTransaction_threads n x op moved u with ⟨r, hr⟩ | ⟨v, hv, hr⟩ <;> rw [← ht, exec_threads hu] at hr
    · exact controlReadClear_set hthreads (controlReadClear_finish x r) hr
    · exact controlReadClear_set hthreads
        (controlReadClear_goOn hprogram (moved_clear hclear hprogram hphase hi hu hs hv)) hr

end Sys2Proof.Machine

/-! SUPPORT. What a completed transaction moves and leaves (R36, R40), and an operation that runs by itself as the chain of its
transactions (R44, R45, R145). -/

namespace Sys2Proof.Machine

open Claims (alone Returns)

/-! ### A completed transaction -/

/-- R36: the byte a completed transaction moves, read or written. (An event moves none.) -/
def movedByte (i : Instr) (s : State) : Byte :=
  match i with
  | .rdIodirA => s.iodir.get .bankA
  | .rdIodirB => s.iodir.get .bankB
  | .rdGpintenA => s.gpinten.get .bankA
  | .rdGpintenB => s.gpinten.get .bankB
  | .rdDefvalA => s.defval.get .bankA
  | .rdDefvalB => s.defval.get .bankB
  | .rdIntconA => s.intcon.get .bankA
  | .rdIntconB => s.intcon.get .bankB
  | .rdIocon => (controlRead s).1
  | .rdGppuA => s.gppu.get .bankA
  | .rdGppuB => s.gppu.get .bankB
  | .rdIntfA => s.intf.get .bankA
  | .rdIntfB => s.intf.get .bankB
  | .rdIntcapA => (captureRead .bankA s).1
  | .rdIntcapB => (captureRead .bankB s).1
  | .rdGpioA => s.lvl.get .bankA
  | .rdGpioB => s.lvl.get .bankB
  | .rdOlatA => s.olat.get .bankA
  | .rdOlatB => s.olat.get .bankB
  | .wrIodirA d | .wrIodirB d | .wrGpintenA d | .wrGpintenB d | .wrDefvalA d | .wrDefvalB d
  | .wrIntconA d | .wrIntconB d | .wrIocon d | .wrGppuA d | .wrGppuB d | .wrIntfA d
  | .wrIntfB d | .wrOlatA d | .wrOlatB d => d
  | .evD0 _ | .evD1 _ | .evZ _ => 0

/-- The instruction is an event of the pin environment. -/
def isEvent : Instr → Bool
  | .evD0 _ | .evD1 _ | .evZ _ => true
  | _ => false

/-- The instruction is a transaction that is not refused, and completed from `s` it moves the byte `v`. -/
structure Moves (i : Instr) (v : Byte) (s : State) : Prop where
  wellFormed : i.WellFormed
  noEvent : isEvent i = false
  byte : movedByte i s = v

/-- The instruction reaches the chip from `s` and gives its issuer the byte `v`. -/
def Completes (i : Instr) (v : Byte) (s : State) : Prop :=
  ∃ u r, Reached i s u ∧ exec i s = .next (u.setReply r) ∧ (r = .value v ∨ r = .written v)

section Completed

variable {i : Instr} {s : State}

theorem completes_of_readTx (hs : s.fate = .completes) (hr : ∀ q, ¬reresolves i s q)
    (hi : exec i s = readTx (fun s => (movedByte i s, levelEval (update i s))) s) : Completes i (movedByte i s) s :=
  ⟨_, _, .of_plain hr, hi.trans (readTx_completes _ hs), .inl rfl⟩

theorem completes_of_ackReadTx (hs : s.fate = .completes) (hr : ∀ q, ¬reresolves i s q)
    (hi : exec i s = ackReadTx (fun s => (movedByte i s, levelEval (update i s))) s) : Completes i (movedByte i s) s :=
  ⟨_, _, .of_plain hr, hi.trans (ackReadTx_completes _ hs), .inl rfl⟩

theorem completes_of_writeTx {store : State → State} (hs : s.fate = .completes)
    (hi : exec i s = writeTx (movedByte i s) store s) (hstore : Reached i s (store s)) : Completes i (movedByte i s) s :=
  ⟨_, _, hstore, hi.trans (writeTx_completes _ _ hs), .inr rfl⟩

/-- R36, R40: a transaction that is not refused, completed by the transport. -/
theorem exec_completed {v : Byte} (hs : s.fate = .completes) (hi : Moves i v s) : Completes i v s := by
  obtain ⟨hwf, hevent, rfl⟩ := hi
  cases i with
  | rdIodirA | rdIodirB | rdGpintenA | rdGpintenB | rdDefvalA | rdDefvalB | rdIntconA | rdIntconB | rdIocon | rdGppuA
  | rdGppuB | rdIntfA | rdIntfB | rdOlatA | rdOlatB => exact completes_of_readTx hs (fun _ h => h) rfl
  | rdIntcapA | rdIntcapB | rdGpioA | rdGpioB => exact completes_of_ackReadTx hs (fun _ h => h) rfl
  | wrGpintenA _ | wrGpintenB _ | wrDefvalA _ | wrDefvalB _ | wrIntconA _ | wrIntconB _ =>
    exact completes_of_writeTx hs rfl (.of_plain fun _ h => h)
  | wrIodirA _ | wrIodirB _ | wrGppuA _ | wrGppuB _ | wrOlatA _ | wrOlatB _ =>
    exact completes_of_writeTx hs rfl ⟨_, resolveChanged_resolved _ _ _, rfl⟩
  | wrIntfA d | wrIntfB d => exact completes_of_writeTx hs rfl (reached_storeIntf _ d _ (fun _ _ h => h) rfl)
  | wrIocon d =>
    have hd : d.getLsbD 7 = false := by simpa only [Instr.WellFormed, Instr.wellFormed, Bool.not_eq_true'] using hwf
    exact completes_of_writeTx hs (exec_wrIocon hd s) (.of_plain fun _ h => h)
  | evD0 _ | evD1 _ | evZ _ => cases hevent

end Completed

/-- What a completed transaction leaves of the chip: what it stored; every level it does not re-resolve; the flags that follow
from its step. -/
structure Transaction (i : Instr) (s t : State) : Prop extends SameSetting (update i s) t where
  iocon : t.iocon = (update i s).iocon
  refused : t.refused = s.refused
  handle : t.handle = s.handle
  kept : ∀ q, ¬reresolves i s q → level q t = level q s
  flags : FlagsFollow (update i s).intf s t

theorem update_handle (i : Instr) (s : State) : (update i s).handle = s.handle := by
  cases i with
  | wrIntfA d | wrIntfB d => simp only [update]; split <;> rfl
  | _ => rfl

theorem update_agenda (i : Instr) (s : State) : (update i s).agenda = s.agenda := by
  cases i with
  | wrIntfA d | wrIntfB d => simp only [update]; split <;> rfl
  | _ => rfl

theorem Reached.agenda {i : Instr} {s t : State} (h : Reached i s t) : t.agenda = s.agenda := by
  obtain ⟨u, hu, rfl⟩ := h
  calc (levelEval u).agenda = u.agenda := levelEval_agenda u
    _ = (update i s).agenda := by rw [hu.frame]
    _ = s.agenda := update_agenda i s

theorem Reached.transaction {i : Instr} {s t : State} (h : Reached i s t) (r : Reply) : Transaction i s (t.setReply r) := by
  have ⟨u, hu, ht⟩ := h
  have hiocon : t.iocon = (update i s).iocon := by rw [ht, levelEval_iocon, hu.frame]
  have hhandle : t.handle = (update i s).handle := by rw [ht, levelEval_handle, hu.frame]
  have hsame : SameSetting (update i s) t := ht ▸ hu.same.trans (levelEval_same u)
  exact { hsame with
    iocon := hiocon
    refused := h.refused
    handle := hhandle.trans (update_handle i s)
    kept := fun _ hq => h.level hq
    flags := h.flagsFollow.setReply r }

section Transaction

variable {i : Instr} {s t : State}

theorem Transaction.params_eq (h : Transaction i s t) : t.params = s.params := h.params.trans (update_params i s)

/-- R97: a transaction that re-resolves no pin keeps every level. -/
theorem Transaction.lvl (h : Transaction i s t) (hi : ∀ q, ¬reresolves i s q) : t.lvl = s.lvl :=
  banked_ext fun q => h.kept q (hi q)

/-- R102, R103: under `EDGE_TO_REF` it leaves the flags it stored and the captures as they were. -/
theorem Transaction.intf_cap (h : Transaction i s t) (hi : ∀ q, ¬reresolves i s q)
    (he : s.params.triggerSense = .edgeToRef) : t.intf = (update i s).intf ∧ t.cap = s.cap :=
  h.flags.of_edgeToRef (h.lvl hi) (h.params_eq ▸ he)

end Transaction

/-! ### The host's side apart -/

/-- The threads, the requests to come and the transport's verdict may be other; the rest is the same. -/
def SameApartFromThreads (s t : State) : Prop :=
  ∃ ths ag f, t = { s with threads := ths, agenda := ag, fate := f }

section SameApartFromThreads

variable {s t u : State} {i : Instr}

theorem SameApartFromThreads.trans (h : SameApartFromThreads s t) (h' : SameApartFromThreads t u) :
    SameApartFromThreads s u := by
  obtain ⟨_, _, _, rfl⟩ := h
  obtain ⟨ths, ag, f, rfl⟩ := h'
  exact ⟨ths, ag, f, rfl⟩

theorem SameApartFromThreads.movedByte (h : SameApartFromThreads s t) (i : Instr) : movedByte i t = movedByte i s := by
  obtain ⟨_, _, _, rfl⟩ := h
  cases i <;> rfl

theorem SameApartFromThreads.moves {v : Byte} (h : SameApartFromThreads s t) (hi : Moves i v s) : Moves i v t :=
  { hi with byte := (h.movedByte i).trans hi.byte }

theorem SameApartFromThreads.reresolves (h : SameApartFromThreads s t) (i : Instr) (q : Pin) :
    reresolves i t q ↔ reresolves i s q := by
  obtain ⟨_, _, _, rfl⟩ := h
  cases i <;> exact Iff.rfl

theorem SameApartFromThreads.update (h : SameApartFromThreads s t) (i : Instr) :
    SameApartFromThreads (update i s) (update i t) := by
  obtain ⟨ths, ag, f, rfl⟩ := h
  refine ⟨ths, ag, f, ?_⟩
  cases i with
  | wrIntfA d | wrIntfB d => simp only [Sys2Proof.Machine.update]; split <;> rfl
  | _ => rfl

/-- A transaction looks at no thread and at no request to come. -/
theorem Transaction.of_sameBefore (h : SameApartFromThreads s t) (ht : Transaction i t u) : Transaction i s u := by
  have hreresolves := h.reresolves i
  obtain ⟨ths, ag, f, hupdate⟩ := h.update i
  obtain ⟨_, _, _, rfl⟩ := h
  obtain ⟨hsame, hiocon, hrefused, hhandle, hkept, hflags⟩ := ht
  rw [hupdate] at hsame hiocon hflags
  exact ⟨⟨hsame.1, hsame.2, hsame.3, hsame.4, hsame.5, hsame.6, hsame.7, hsame.8⟩, hiocon, hrefused, hhandle,
    fun q hq => hkept q (mt (hreresolves q).1 hq), hflags⟩

theorem Transaction.of_sameAfter (ht : Transaction i s t) (h : SameApartFromThreads t u) : Transaction i s u := by
  obtain ⟨_, _, _, rfl⟩ := h
  obtain ⟨hsame, hiocon, hrefused, hhandle, hkept, hflags⟩ := ht
  exact ⟨⟨hsame.1, hsame.2, hsame.3, hsame.4, hsame.5, hsame.6, hsame.7, hsame.8⟩, hiocon, hrefused, hhandle, hkept, hflags⟩

end SameApartFromThreads

/-! ### An operation by itself -/

/-- Thread 0, running `op` alone, when its transactions have moved these bytes: the operation has returned, or it waits with a
transaction to issue. -/
def threadAfter (op : DriverOp) (moved : List Byte) : Thread :=
  match op.next moved with
  | .done r => ⟨[], .start, [r]⟩
  | .issue _ => ⟨[op], .running moved, []⟩

theorem threadAfter_done {op : DriverOp} {moved : List Byte} {r : OpResult} (h : op.next moved = .done r) :
    threadAfter op moved = ⟨[], .start, [r]⟩ := by
  rw [threadAfter, h]

theorem threadAfter_issue {op : DriverOp} {moved : List Byte} {i : Instr} (h : op.next moved = .issue i) :
    threadAfter op moved = ⟨[op], .running moved, []⟩ := by
  rw [threadAfter, h]

theorem advanceOp_alone (op : DriverOp) (before moved : List Byte) (s : State) :
    advanceOp 0 ⟨[op], .running before, []⟩ op moved s = s.setThread 0 (threadAfter op moved) := by
  unfold advanceOp threadAfter
  cases op.next moved <;> rfl

/-- From the chip as in `s`, with thread 0 alone and `moved` the bytes `op` has moved, `k` moves run `op` to its return with `r`,
and leave `Q`. -/
def Resumes (op : DriverOp) (moved : List Byte) (k : Nat) (r : OpResult) (Q : State → Prop) (s : State) : Prop :=
  ∀ u, SameApartFromThreads s u → u.threads = [threadAfter op moved] → u.agenda = List.replicate k (.move 0 .completes) →
    ∃ t, Host.Core.run Sys2Proof.core k u = .next t ∧ t.threads = [⟨[], .start, [r]⟩] ∧ Q t

theorem run_succ {s t : State} (h : step s = .next t) (k : Nat) :
    Host.Core.run Sys2Proof.core (k + 1) s = Host.Core.run Sys2Proof.core k t := by
  have hstep : Sys2Proof.core.step s = .next t := h
  simp only [Host.Core.run, hstep]

section Alone

variable {op : DriverOp} {moved : List Byte} {k : Nat} {r : OpResult} {Q : State → Prop} {s : State} {i : Instr} {v : Byte}

theorem Resumes.done (h : op.next moved = .done r) (hQ : ∀ t, SameApartFromThreads s t → Q t) :
    Resumes op moved 0 r Q s := by
  intro u hu hthreads _
  exact ⟨u, rfl, hthreads.trans (by rw [threadAfter_done h]), hQ u hu⟩

/-- R44, R45: one move runs one transaction of the operation. -/
theorem Resumes.issue (hi : op.next moved = .issue i) (hm : Moves i v s)
    (h : ∀ u, Transaction i s u → Resumes op (moved ++ [v]) k r Q u) : Resumes op moved (k + 1) r Q s := by
  intro u hu hthreads hagenda
  have hpopped : SameApartFromThreads s
      { u with agenda := List.replicate k (.move 0 .completes), fate := .completes } := hu.trans ⟨_, _, _, rfl⟩
  obtain ⟨w, reply, hreached, hexec, hreply⟩ := exec_completed (i := i) rfl (hpopped.moves hm)
  rw [threadAfter_issue hi] at hthreads
  have hx : u.threads[0]? = some ⟨[op], .running moved, []⟩ := by rw [hthreads]; rfl
  have hstep : step u = .next ((w.setReply reply).setThread 0 (threadAfter op (moved ++ [v]))) := by
    rw [step_eq_serve (q := .move 0 .completes) (rest := List.replicate k (.move 0 .completes)) hagenda,
      ← advanceOp_alone op moved, ← afterTransaction_moved hreply]
    exact moveThread_running hx rfl rfl hi hexec
  rw [run_succ hstep]
  refine h _ ((hreached.transaction reply).of_sameBefore hpopped) _ ⟨_, _, _, rfl⟩ ?_ ?_
  · have hw : w.threads = u.threads := hreached.threads
    simp [hw, hthreads]
  · exact hreached.agenda

/-- The operation's last transaction. -/
theorem Resumes.last (hi : op.next moved = .issue i) (hm : Moves i v s) (hr : op.next (moved ++ [v]) = .done r)
    (hQ : ∀ t, Transaction i s t → Q t) : Resumes op moved 1 r Q s :=
  .issue hi hm fun _ hu => .done hr fun t ht => hQ t (hu.of_sameAfter ht)

theorem step_alone (op : DriverOp) (k : Nat) (s : State) :
    step (alone op (k + 1) s) = .next (beginOp 0 ⟨[op], .start, []⟩ op { alone op k s with fate := .completes }) := by
  have hx : ({ alone op k s with fate := .completes } : State).threads[0]? = some ⟨[op], .start, []⟩ := rfl
  rw [step_eq_serve (q := .move 0 .completes) (rest := List.replicate k (.move 0 .completes)) rfl]
  exact moveThread_start hx rfl rfl

/-- R145: an operation by itself: its first move begins it, which leaves the chip as in `c`, and the others run its
transactions. -/
theorem Resumes.returns {c : State} (h : Resumes op [] k r Q c) (hop : op ≠ .closeDriver)
    (hbegin : beginOp 0 ⟨[op], .start, []⟩ op { alone op k s with fate := .completes } =
      { c with threads := [⟨[op], .running [], []⟩], agenda := List.replicate k (.move 0 .completes), fate := .completes }) :
    ∃ t, Returns op (k + 1) r s t ∧ Q t := by
  obtain ⟨i, hi⟩ := DriverOp.next_nil_issues hop
  obtain ⟨t, hrun, hthreads, hQ⟩ := h { c with threads := _, agenda := _, fate := .completes } ⟨_, _, _, rfl⟩
    (congrArg (fun x => [x]) (threadAfter_issue hi).symm) rfl
  refine ⟨t, ⟨?_, hthreads⟩, hQ⟩
  rw [run_succ (step_alone op k s), hbegin, hrun]

/-- R113, R114: an operation that passes its checks. -/
theorem Resumes.returns_of_opened (h : Resumes op [] k r Q s) (hop : ChecksHandle op) (hs : s.handle = .opened)
    (hpin : op.pinError = none) : ∃ t, Returns op (k + 1) r s t ∧ Q t :=
  h.returns hop.1 (beginOp_opened (s := { alone op k s with fate := .completes }) hop hs hpin)

end Alone

end Sys2Proof.Machine

/-! SUPPORT. The driver's operations by themselves (R117 to R131). -/

namespace Sys2Proof.Machine

open Claims (Returns writeIntf)

/-! ### The transactions the operations issue -/

/-- What a completed read of a register gives. -/
def readByte (k : Kind) (b : Bank) (s : State) : Byte :=
  match k with
  | .iodir => s.iodir.get b
  | .gppu => s.gppu.get b
  | .gpio => s.lvl.get b
  | .olat => s.olat.get b
  | .gpinten => s.gpinten.get b
  | .intcon => s.intcon.get b
  | .defval => s.defval.get b
  | .intf => s.intf.get b
  | .intcap => (captureRead b s).1

theorem moves_readReg (k : Kind) (b : Bank) (s : State) : Moves (readReg k b) (readByte k b s) s := by
  cases k <;> cases b <;> exact ⟨rfl, rfl, rfl⟩

theorem moves_rdIocon (s : State) : Moves .rdIocon (controlRead s).1 s := ⟨rfl, rfl, rfl⟩

section Writes

variable (b : Bank) (d : Byte) (s : State)

theorem moves_writeIodir : Moves (writeIodir b d) d s := by cases b <;> exact ⟨rfl, rfl, rfl⟩
theorem moves_writeGppu : Moves (writeGppu b d) d s := by cases b <;> exact ⟨rfl, rfl, rfl⟩
theorem moves_writeOlat : Moves (writeOlat b d) d s := by cases b <;> exact ⟨rfl, rfl, rfl⟩
theorem moves_writeGpinten : Moves (writeGpinten b d) d s := by cases b <;> exact ⟨rfl, rfl, rfl⟩
theorem moves_writeIntcon : Moves (writeIntcon b d) d s := by cases b <;> exact ⟨rfl, rfl, rfl⟩
theorem moves_writeDefval : Moves (writeDefval b d) d s := by cases b <;> exact ⟨rfl, rfl, rfl⟩
theorem moves_writeIntf : Moves (writeIntf b d) d s := by cases b <;> exact ⟨rfl, rfl, rfl⟩

/-- R86: a write that leaves bit 7 clear is not refused. -/
theorem moves_wrIocon {d : Byte} (h : d.getLsbD 7 = false) (s : State) : Moves (.wrIocon d) d s :=
  ⟨by rw [Instr.WellFormed, Instr.wellFormed, h]; rfl, rfl, rfl⟩

@[simp] theorem update_writeIodir : update (writeIodir b d) s = s.setIodir b d := by cases b <;> rfl
@[simp] theorem update_writeGppu : update (writeGppu b d) s = s.setGppu b d := by cases b <;> rfl
@[simp] theorem update_writeOlat : update (writeOlat b d) s = s.setOlat b d := by cases b <;> rfl
@[simp] theorem update_writeGpinten : update (writeGpinten b d) s = s.setGpinten b d := by cases b <;> rfl
@[simp] theorem update_writeIntcon : update (writeIntcon b d) s = s.setIntcon b d := by cases b <;> rfl
@[simp] theorem update_writeDefval : update (writeDefval b d) s = s.setDefval b d := by cases b <;> rfl

end Writes

@[simp] theorem update_readReg_gpio (b : Bank) (s : State) : update (readReg .gpio b) s = s.setIntf b 0 := by
  cases b <;> rfl
@[simp] theorem update_readReg_intcap (b : Bank) (s : State) :
    update (readReg .intcap b) s = (s.drawn 8).setIntf b 0 := by
  cases b <;> rfl
@[simp] theorem update_readReg_intf (b : Bank) (s : State) : update (readReg .intf b) s = s := by cases b <;> rfl

/-- R41, R106: a read stores nothing but the flags it clears. -/
theorem update_readReg_same (k : Kind) (b : Bank) (s : State) :
    SameSetting s (update (readReg k b) s) ∧ (update (readReg k b) s).iocon = s.iocon := by
  cases k <;> cases b <;> exact ⟨⟨rfl, rfl, rfl, rfl, rfl, rfl, rfl, rfl⟩, rfl⟩

/-- R97: a read re-resolves no pin. -/
theorem not_reresolves_readReg (k : Kind) (b : Bank) (s : State) (q : Pin) : ¬reresolves (readReg k b) s q := by
  cases k <;> cases b <;> exact id

section Reads

variable {k : Kind} {b : Bank} {s t : State}

theorem Transaction.same_of_read (h : Transaction (readReg k b) s t) : SameSetting s t :=
  (update_readReg_same k b s).1.trans h.toSameSetting

theorem Transaction.iocon_of_read (h : Transaction (readReg k b) s t) : t.iocon = s.iocon :=
  h.iocon.trans (update_readReg_same k b s).2

theorem Transaction.lvl_of_read (h : Transaction (readReg k b) s t) : t.lvl = s.lvl :=
  h.lvl (not_reresolves_readReg k b s)

end Reads

/-! ### Pin indices -/

section PinIndex

variable (p : Pin)

@[simp] theorem pinOfIndex_val : pinOfIndex p.val = p := by
  simp [pinOfIndex]

@[simp] theorem bankOfIndex_val : bankOfIndex p.val = bankOf p := by
  rw [bankOfIndex, pinOfIndex_val]

@[simp] theorem bitOfIndex_val : bitOfIndex p.val = bitOf p := by
  rw [bitOfIndex, pinOfIndex_val]

theorem validPin_val : validPin p.val = true :=
  decide_eq_true ⟨by omega, by omega⟩

end PinIndex

/-- What a transaction stores, said by the state that storing it makes. -/
theorem Transaction.stored {i : Instr} {s t c : State} (h : Transaction i s t) (hc : update i s = c) :
    SameSetting c t ∧ t.iocon = c.iocon :=
  hc ▸ ⟨h.toSameSetting, h.iocon⟩

/-! ### `open` and `close` -/

/-- Settles O46: `open` writes both direction registers; a failed one and `close` end in their first move. -/
theorem openAndClose : Obligations.OpenAndClose := by
  intro s a path
  refine ⟨?_, rfl, rfl⟩
  refine Resumes.returns (c := s.setHandle .opened) ?_ nofun rfl
  refine .issue rfl (moves_writeIodir .bankA 0xFF _) fun u hu => .last rfl (moves_writeIodir .bankB 0xFF u) rfl fun t ht => ?_
  refine ⟨ht.handle.trans hu.handle, ?_, ht.gppu.trans hu.gppu, ht.olat.trans hu.olat, ht.gpinten.trans hu.gpinten,
    ht.intcon.trans hu.intcon, ht.defval.trans hu.defval, ht.iocon.trans hu.iocon⟩
  calc t.iodir = u.iodir.set .bankB 0xFF := ht.iodir
    _ = (s.iodir.set .bankA 0xFF).set .bankB 0xFF := congrArg (·.set .bankB 0xFF) hu.iodir

/-! ### Read-modify-write of one register -/

/-- Settles O48: the latch is read and written back with the pin's bit put. -/
theorem writePinKeepsOthers : Obligations.WritePinKeepsOthers := by
  intro s p v hs
  have hnext (moved) : (DriverOp.writePin p.val v).next moved = writePinNext (bankOf p) (bitOf p) v moved := by
    simp [DriverOp.next]
  refine Resumes.returns_of_opened (op := .writePin p.val v) ?_ ⟨nofun, nofun⟩ hs (if_pos (validPin_val p))
  refine .issue (hnext _) (moves_readReg .olat _ s) fun u hu => ?_
  refine .last (hnext _) (moves_writeOlat _ _ u) (hnext _) fun t ht => ?_
  have hread := hu.same_of_read
  obtain ⟨hwrite, hiocon⟩ := ht.stored (update_writeOlat ..)
  have holat : t.olat = putPin s.olat p (v == .high) := by
    rw [hwrite.olat, State.setOlat_olat, hread.olat]
    rfl
  refine ⟨hwrite.iodir.trans hread.iodir, hwrite.gppu.trans hread.gppu,
    ⟨hwrite.gpinten.trans hread.gpinten, hwrite.intcon.trans hread.intcon, hwrite.defval.trans hread.defval,
      hiocon.trans hu.iocon_of_read⟩, fun q => ?_⟩
  rw [holat, pinBit_putPin]

/-- R74, R76: such a write re-resolves no pin. -/
theorem not_reresolves_writeGpinten (b : Bank) (d : Byte) (s : State) (q : Pin) : ¬reresolves (writeGpinten b d) s q := by
  cases b <;> exact id

/-- Settles O50: the enables are read and written back with the pin's bit put. -/
theorem setInterruptEnabledOneBit : Obligations.SetInterruptEnabledOneBit := by
  intro s p e hs
  have hnext (moved) :
      (DriverOp.setInterruptEnabled p.val e).next moved = setInterruptEnabledNext (bankOf p) (bitOf p) e moved := by
    simp [DriverOp.next]
  refine Resumes.returns_of_opened (op := .setInterruptEnabled p.val e) ?_ ⟨nofun, nofun⟩ hs (if_pos (validPin_val p))
  refine .issue (hnext _) (moves_readReg .gpinten _ s) fun u hu => ?_
  refine .last (hnext _) (moves_writeGpinten _ _ u) (hnext _) fun t ht => ?_
  have hread := hu.same_of_read
  obtain ⟨hwrite, hiocon⟩ := ht.stored (update_writeGpinten ..)
  have hlvl : t.lvl = u.lvl := ht.lvl (not_reresolves_writeGpinten _ _ u)
  have hgpinten : t.gpinten = putPin s.gpinten p e := by
    rw [hwrite.gpinten, State.setGpinten_gpinten, hread.gpinten]
    rfl
  refine ⟨hwrite.iodir.trans hread.iodir, hwrite.gppu.trans hread.gppu, hwrite.olat.trans hread.olat,
    hlvl.trans hu.lvl_of_read, hwrite.intcon.trans hread.intcon, hwrite.defval.trans hread.defval,
    hiocon.trans hu.iocon_of_read, fun q => ?_⟩
  rw [hgpinten, pinBit_putPin]

/-- R85, R86, R123: a read-modify-write of the control register that keeps bit 7 stores bits 1 to 6 of what it makes of the
byte read. -/
theorem modifyIocon_returns {op : DriverOp} {f : Byte → Byte} {s : State} (hop : ChecksHandle op) (hs : s.handle = .opened)
    (hpin : op.pinError = none) (hnext : ∀ moved, op.next moved = modifyIocon f moved)
    (hf : ∀ c, (f c).getLsbD 7 = c.getLsbD 7) (hcontrol : ControlReserved s) :
    ∃ t, Returns op 3 .ok s t ∧ t.refused = s.refused ∧
      ∀ k, t.iocon.getLsbD k = (decide (1 ≤ k ∧ k ≤ 6) && (f (controlRead s).1).getLsbD k) := by
  have hclear : (f (controlRead s).1).getLsbD 7 = false := by rw [hf, controlRead_getLsbD s (by decide), hcontrol.1]
  refine Resumes.returns_of_opened ?_ hop hs hpin
  refine .issue (hnext _) (moves_rdIocon s) fun u hu => .last (hnext _) (moves_wrIocon hclear u) (hnext _) fun t ht => ?_
  have hiocon : t.iocon = f (controlRead s).1 &&& 0x7E := ht.iocon
  refine ⟨ht.refused.trans hu.refused, fun k => ?_⟩
  rw [hiocon, BitVec.getLsbD_and, getLsbD_controlWriteMask, Bool.and_comm]

/-- Settles O51: three bits are put, and the other bits stay as read. -/
theorem configureOutputBits : Obligations.ConfigureOutputBits := by
  intro s c hs hcontrol
  obtain ⟨t, hreturns, hrefused, hbits⟩ := modifyIocon_returns (op := .configureInterruptOutput c) ⟨nofun, nofun⟩ hs rfl
    (fun _ => rfl) (outputBits_getLsbD_seven c) hcontrol
  have hput (k : Nat) (hk : 1 ≤ k ∧ k ≤ 6) : t.iocon.getLsbD k =
      if k = 6 then c.mirrored else if k = 2 then c.openDrain
      else if k = 1 then c.activePolarity == .high && !c.openDrain else s.iocon.getLsbD k := by
    have hk8 : k < 8 := by omega
    rw [hbits, decide_eq_true hk, Bool.true_and, outputBits, getLsbD_putBit _ _ _ hk8, getLsbD_putBit _ _ _ hk8,
      getLsbD_putBit _ _ _ hk8, controlRead_getLsbD s hk.1]
  refine ⟨t, hreturns, hput 1 (by decide), hput 2 (by decide), hput 6 (by decide), ⟨hbits 7, hbits 0⟩, fun k h3 h5 => ?_,
    hrefused⟩
  rw [hput k (by omega), if_neg (by omega), if_neg (by omega), if_neg (by omega)]

/-- R130, R131: an operation that puts one bit of the control register. -/
theorem putIocon_returns {op : DriverOp} {j : Nat} {bit : Bool} {s : State} (hop : ChecksHandle op) (hs : s.handle = .opened)
    (hpin : op.pinError = none) (hnext : ∀ moved, op.next moved = modifyIocon (fun c => putBit c j bit) moved)
    (hj : 1 ≤ j ∧ j ≤ 6) (hcontrol : ControlReserved s) :
    ∃ t, Returns op 3 .ok s t ∧ t.refused = s.refused ∧
      ∀ k, t.iocon.getLsbD k = if k = j then bit else s.iocon.getLsbD k := by
  obtain ⟨t, hreturns, hrefused, hbits⟩ := modifyIocon_returns hop hs hpin hnext
    (fun c => getLsbD_putBit_ne c bit (by decide) (by omega)) hcontrol
  refine ⟨t, hreturns, hrefused, fun k => ?_⟩
  rw [hbits]
  by_cases hk : 1 ≤ k ∧ k ≤ 6
  · rw [decide_eq_true hk, Bool.true_and, getLsbD_putBit _ _ _ (by omega), controlRead_getLsbD s hk.1]
  · have hreserved : s.iocon.getLsbD k = false := by
      rcases (by omega : k = 0 ∨ k = 7 ∨ 8 ≤ k) with rfl | rfl | hk8
      · exact hcontrol.2
      · exact hcontrol.1
      · exact BitVec.getLsbD_of_ge _ _ hk8
    rw [decide_eq_false hk, Bool.false_and, if_neg (by omega), hreserved]

/-- Settles O52: bit 4 and bit 5. -/
theorem controlToggles : Obligations.ControlToggles := by
  intro s e hs hcontrol
  exact ⟨putIocon_returns (op := .setSlewRateEnabled e) ⟨nofun, nofun⟩ hs rfl (fun _ => rfl) (by decide) hcontrol,
    putIocon_returns (op := .setSequentialOperationEnabled e) ⟨nofun, nofun⟩ hs rfl (fun _ => rfl) (by decide) hcontrol⟩

/-! ### Read-modify-write of two registers -/

/-- Settles O47: direction and pull-up are read, and each is written back with the pin's bit put. -/
theorem setPinModeEncodes : Obligations.SetPinModeEncodes := by
  intro s p mode hs
  have hnext (moved) : (DriverOp.setPinMode p.val mode).next moved = setPinModeNext (bankOf p) (bitOf p) mode moved := by
    simp [DriverOp.next]
  refine Resumes.returns_of_opened (op := .setPinMode p.val mode) ?_ ⟨nofun, nofun⟩ hs (if_pos (validPin_val p))
  refine .issue (hnext _) (moves_readReg .iodir _ s) fun u₁ h₁ => ?_
  refine .issue (hnext _) (moves_readReg .gppu _ u₁) fun u₂ h₂ => ?_
  refine .issue (hnext _) (moves_writeIodir _ _ u₂) fun u₃ h₃ => ?_
  refine .last (hnext _) (moves_writeGppu _ _ u₃) (hnext _) fun t h₄ => ?_
  have hread₁ := h₁.same_of_read
  have hread := hread₁.trans h₂.same_of_read
  obtain ⟨hwrite, hiocon⟩ := h₃.stored (update_writeIodir ..)
  obtain ⟨hwrite', hiocon'⟩ := h₄.stored (update_writeGppu ..)
  have hiodir : t.iodir = putPin s.iodir p (modeBits mode).1 := by
    rw [hwrite'.iodir, State.setGppu_iodir, hwrite.iodir, State.setIodir_iodir, hread.iodir]
    rfl
  have hgppu : t.gppu = putPin s.gppu p (modeBits mode).2 := by
    rw [hwrite'.gppu, State.setGppu_gppu, hwrite.gppu, State.setIodir_gppu, hread.gppu, readByte, hread₁.gppu]
    rfl
  refine ⟨hwrite'.olat.trans (hwrite.olat.trans hread.olat),
    ⟨hwrite'.gpinten.trans (hwrite.gpinten.trans hread.gpinten), hwrite'.intcon.trans (hwrite.intcon.trans hread.intcon),
      hwrite'.defval.trans (hwrite.defval.trans hread.defval),
      hiocon'.trans (hiocon.trans (h₂.iocon_of_read.trans h₁.iocon_of_read))⟩, fun q => ?_, fun q => ?_⟩
  · rw [hiodir, pinBit_putPin]
    cases mode <;> rfl
  · rw [hgppu, pinBit_putPin]
    cases mode <;> rfl

end Sys2Proof.Machine

/-! SUPPORT. The operations on the trigger modes, the input register and the flags by themselves (R121, R124 to R129). -/

namespace Sys2Proof

theorem Banked.set_get {α : Type} (x : Banked α) (b : Bank) : x.set b (x.get b) = x := by cases b <;> rfl

end Sys2Proof

namespace Sys2Proof.Machine

open Claims (Returns writeIntf)

/-! ### The trigger mode -/

/-- R78, R80: such a write re-resolves no pin. -/
theorem not_reresolves_writeIntcon (b : Bank) (d : Byte) (s : State) (q : Pin) : ¬reresolves (writeIntcon b d) s q := by
  cases b <;> exact id

/-- R82, R84: such a write re-resolves no pin. -/
theorem not_reresolves_writeDefval (b : Bank) (d : Byte) (s : State) (q : Pin) : ¬reresolves (writeDefval b d) s q := by
  cases b <;> exact id

/-- R124: the control bit of the pin. -/
theorem set_triggerBits_fst (x y : Banked Byte) (p : Pin) (g : TriggerMode) :
    x.set (bankOf p) (triggerBits g (bitOf p) (x.get (bankOf p)) (y.get (bankOf p))).1 = putPin x p (g != .onChange) := by
  cases g <;> rfl

/-- R124: the reference bit of the pin, which `ON_CHANGE` leaves. -/
theorem set_triggerBits_snd (x y : Banked Byte) (p : Pin) (g : TriggerMode) :
    y.set (bankOf p) (triggerBits g (bitOf p) (x.get (bankOf p)) (y.get (bankOf p))).2 =
      if g = .onChange then y else putPin y p (g == .onRisingEdge) := by
  cases g with
  | onChange => exact y.set_get (bankOf p)
  | onRisingEdge | onFallingEdge => rfl

/-- Settles O53: control and reference are read, and each is written back as the mode says. -/
theorem setTriggerModeEncodes : Obligations.SetTriggerModeEncodes := by
  intro s p g hs
  have hnext (moved) : (DriverOp.setInterruptTriggerMode p.val g).next moved =
      setInterruptTriggerModeNext (bankOf p) (bitOf p) g moved := by
    simp [DriverOp.next]
  refine Resumes.returns_of_opened (op := .setInterruptTriggerMode p.val g) ?_ ⟨nofun, nofun⟩ hs
    (if_pos (validPin_val p))
  refine .issue (hnext _) (moves_readReg .intcon _ s) fun u₁ h₁ => ?_
  refine .issue (hnext _) (moves_readReg .defval _ u₁) fun u₂ h₂ => ?_
  refine .issue (hnext _) (moves_writeIntcon _ _ u₂) fun u₃ h₃ => ?_
  refine .last (hnext _) (moves_writeDefval _ _ u₃) (hnext _) fun t h₄ => ?_
  have hread₁ := h₁.same_of_read
  have hread := hread₁.trans h₂.same_of_read
  obtain ⟨hwrite, hiocon⟩ := h₃.stored (update_writeIntcon ..)
  obtain ⟨hwrite', hiocon'⟩ := h₄.stored (update_writeDefval ..)
  have hlvl : t.lvl = s.lvl :=
    calc t.lvl = u₃.lvl := h₄.lvl (not_reresolves_writeDefval _ _ u₃)
      _ = u₂.lvl := h₃.lvl (not_reresolves_writeIntcon _ _ u₂)
      _ = s.lvl := h₂.lvl_of_read.trans h₁.lvl_of_read
  have hintcon : t.intcon = putPin s.intcon p (g != .onChange) := by
    rw [hwrite'.intcon, State.setDefval_intcon, hwrite.intcon, State.setIntcon_intcon, hread.intcon]
    exact set_triggerBits_fst s.intcon u₁.defval p g
  have hdefval : t.defval = if g = .onChange then s.defval else putPin s.defval p (g == .onRisingEdge) := by
    rw [hwrite'.defval, State.setDefval_defval, hwrite.defval, State.setIntcon_defval, hread.defval, ← hread₁.defval]
    exact set_triggerBits_snd s.intcon u₁.defval p g
  refine ⟨hwrite'.iodir.trans (hwrite.iodir.trans hread.iodir),
    hwrite'.gppu.trans (hwrite.gppu.trans hread.gppu), hwrite'.olat.trans (hwrite.olat.trans hread.olat), hlvl,
    hwrite'.gpinten.trans (hwrite.gpinten.trans hread.gpinten),
    hiocon'.trans (hiocon.trans (h₂.iocon_of_read.trans h₁.iocon_of_read)), fun q => ?_, fun q => ?_⟩
  · rw [hintcon, pinBit_putPin]
  · rw [hdefval]
    by_cases hg : g = .onChange <;> simp [hg]

/-! ### The flags of the transactions under `EDGE_TO_REF` -/

/-- The flags and captures of `t` are `intf` and those of `s`, and its parameters are those of `s`. -/
structure FlagsLeft (intf : Banked Byte) (s t : State) : Prop where
  intf : t.intf = intf
  cap : t.cap = s.cap
  params : t.params = s.params

section EdgeToRef

variable {b : Bank} {s t u : State} {intf : Banked Byte}

theorem FlagsLeft.refl (s : State) : FlagsLeft s.intf s s := ⟨rfl, rfl, rfl⟩

/-- One more transaction that re-resolves no pin. -/
theorem FlagsLeft.step {i : Instr} (h : FlagsLeft intf s t) (hi : ∀ q, ¬reresolves i t q) (ht : Transaction i t u)
    (he : s.params.triggerSense = .edgeToRef) : FlagsLeft (update i t).intf s u := by
  obtain ⟨hintf, hcap⟩ := ht.intf_cap hi (h.params ▸ he)
  exact ⟨hintf, hcap.trans h.cap, ht.params_eq.trans h.params⟩

/-- C3: a read of the flag register keeps the flags. -/
theorem FlagsLeft.read_intf (h : FlagsLeft intf s t) (ht : Transaction (readReg .intf b) t u)
    (he : s.params.triggerSense = .edgeToRef) : FlagsLeft intf s u := by
  have hu := h.step (not_reresolves_readReg .intf b t) ht he
  rwa [update_readReg_intf, h.intf] at hu

/-- R106: a read of the input register clears the flags of its bank. -/
theorem FlagsLeft.read_gpio (h : FlagsLeft intf s t) (ht : Transaction (readReg .gpio b) t u)
    (he : s.params.triggerSense = .edgeToRef) : FlagsLeft (intf.set b 0) s u := by
  have hu := h.step (not_reresolves_readReg .gpio b t) ht he
  rwa [update_readReg_gpio, State.setIntf_intf, h.intf] at hu

/-- R91, R106: so does a read of the capture register. -/
theorem FlagsLeft.read_intcap (h : FlagsLeft intf s t) (ht : Transaction (readReg .intcap b) t u)
    (he : s.params.triggerSense = .edgeToRef) : FlagsLeft (intf.set b 0) s u := by
  have hu := h.step (not_reresolves_readReg .intcap b t) ht he
  rwa [update_readReg_intcap, State.setIntf_intf, State.drawn_intf, h.intf] at hu

theorem not_reresolves_writeIntf (b : Bank) (d : Byte) (s : State) (q : Pin) : ¬reresolves (writeIntf b d) s q := by
  cases b <;> exact id

/-- R107: what a write of 0 to the flag register of bank `b` leaves of the flags `intf`. -/
def zeroed (mode : IntfWrite) (b : Bank) (intf : Banked Byte) : Banked Byte :=
  match mode with
  | .clearOnZero => intf.set b 0
  | .ignored => intf

theorem flagsWritten_zero (b : Bank) (s : State) : flagsWritten b 0 s = zeroed s.params.intfWrite b s.intf := by
  unfold flagsWritten zeroed
  cases s.params.intfWrite <;> simp

theorem FlagsLeft.zero_intf (h : FlagsLeft intf s t) (ht : Transaction (writeIntf b 0) t u)
    (he : s.params.triggerSense = .edgeToRef) : FlagsLeft (zeroed s.params.intfWrite b intf) s u := by
  have hu := h.step (not_reresolves_writeIntf b 0 t) ht he
  rwa [update_writeIntf_intf, flagsWritten_zero, h.intf, h.params] at hu

theorem set_zero_zero (x : Banked Byte) : (x.set .bankA 0).set .bankB 0 = ⟨0, 0⟩ := rfl

theorem noFlags_set (b : Bank) : (⟨0, 0⟩ : Banked Byte).set b 0 = ⟨0, 0⟩ := by cases b <;> rfl

theorem zeroed_noFlags (mode : IntfWrite) (b : Bank) : zeroed mode b ⟨0, 0⟩ = ⟨0, 0⟩ := by
  cases mode
  · exact noFlags_set b
  · rfl

end EdgeToRef

/-! ### The input register -/

/-- Settles O49: the one transaction reads the input register of the pin's bank. -/
theorem readPinAcknowledgesBank : Obligations.ReadPinAcknowledgesBank := by
  intro s p hs
  have hnext (moved) : (DriverOp.readPin p.val).next moved = readPinNext (bankOf p) (bitOf p) moved := by
    simp [DriverOp.next]
  refine Resumes.returns_of_opened (op := .readPin p.val) (.last (hnext _) (moves_readReg .gpio _ s) (hnext _) ?_)
    ⟨nofun, nofun⟩ hs (if_pos (validPin_val p))
  exact fun t ht => ⟨ht.lvl_of_read, fun he => ((FlagsLeft.refl s).read_gpio ht he).intf⟩

/-- Settles O57: the two reads clear every flag, and neither write sets one. -/
theorem clearAllInterrupts : Obligations.ClearAllInterrupts := by
  intro s hs he
  refine Resumes.returns_of_opened (op := .clearAllInterrupts) ?_ ⟨nofun, nofun⟩ hs rfl
  refine .issue rfl (moves_readReg .gpio .bankA s) fun u₁ h₁ => ?_
  refine .issue rfl (moves_readReg .gpio .bankB u₁) fun u₂ h₂ => ?_
  refine .issue rfl (moves_writeIntf .bankA 0 u₂) fun u₃ h₃ => .last rfl (moves_writeIntf .bankB 0 u₃) rfl fun t h₄ => ?_
  have hacked : FlagsLeft ⟨0, 0⟩ s u₂ := ((FlagsLeft.refl s).read_gpio (b := .bankA) h₁ he).read_gpio (b := .bankB) h₂ he
  have hleft := (hacked.zero_intf (b := .bankA) h₃ he).zero_intf (b := .bankB) h₄ he
  rw [zeroed_noFlags, zeroed_noFlags] at hleft
  exact ⟨hleft.intf, hleft.cap⟩

/-! ### The flags -/

/-- R125, R128: an operation that first reads the flags of both banks. -/
theorem resumes_of_flagReads {op : DriverOp} {k : Nat} {r : OpResult} {Q : State → Prop} {s : State}
    (hreadA : op.next [] = .issue (readReg .intf .bankA)) (hreadB : ∀ x, op.next [x] = .issue (readReg .intf .bankB))
    (he : s.params.triggerSense = .edgeToRef)
    (h : ∀ u, FlagsLeft s.intf s u → Resumes op [s.intf.a, s.intf.b] k r Q u) : Resumes op [] (k + 2) r Q s := by
  refine .issue hreadA (moves_readReg .intf .bankA s) fun u hu => ?_
  have hleft := (FlagsLeft.refl s).read_intf hu he
  have hmoves := moves_readReg .intf .bankB u
  rw [readByte, hleft.intf] at hmoves
  exact .issue (hreadB _) hmoves fun v hv => h v (hleft.read_intf hv he)

theorem SameApartFromThreads.intf {s t : State} (h : SameApartFromThreads s t) : t.intf = s.intf := by
  obtain ⟨_, _, _, rfl⟩ := h
  rfl

/-- R125 to R127: an operation that gives a view of the flags. -/
theorem flagsNext_returns {op : DriverOp} {clear : Bool} {result : BitVec 16 → OpResult} {s : State}
    (hop : ChecksHandle op) (hs : s.handle = .opened) (hpin : op.pinError = none)
    (hnext : ∀ moved, op.next moved = flagsNext clear result moved) (he : s.params.triggerSense = .edgeToRef) :
    ∃ t, Returns op (if clear then 5 else 3) (result (view16 s.intf)) s t ∧
      t.intf = if clear = true ∧ s.params.intfWrite = .clearOnZero then ⟨0, 0⟩ else s.intf := by
  cases clear with
  | false =>
    refine Resumes.returns_of_opened (k := 2) ?_ hop hs hpin
    refine resumes_of_flagReads (k := 0) (hnext _) (fun _ => hnext _) he fun u hu => .done (hnext _) fun t ht => ?_
    exact ht.intf.trans hu.intf
  | true =>
    refine Resumes.returns_of_opened (k := 4) ?_ hop hs hpin
    refine resumes_of_flagReads (k := 2) (hnext _) (fun _ => hnext _) he fun u hu => ?_
    refine .issue (hnext _) (moves_writeIntf .bankA 0 u) fun v hv => ?_
    refine .last (hnext _) (moves_writeIntf .bankB 0 v) (hnext _) fun t ht => ?_
    rw [((hu.zero_intf (b := .bankA) hv he).zero_intf (b := .bankB) ht he).intf]
    cases s.params.intfWrite with
    | clearOnZero => exact set_zero_zero s.intf
    | ignored => rfl

/-- Settles O54: the view is all sixteen flags. -/
theorem getInterruptFlags : Obligations.GetInterruptFlags := by
  intro s hs he
  have hview (clear : Bool) := flagsNext_returns (op := .getInterruptFlags clear) (result := .flags) ⟨nofun, nofun⟩ hs rfl
    (fun _ => rfl) he
  obtain ⟨t, hreturns, hintf⟩ := hview false
  obtain ⟨t', hreturns', hintf'⟩ := hview true
  refine ⟨⟨t, hreturns, hintf⟩, t', hreturns', fun hw => ?_, fun hw => ?_⟩ <;> simp [hintf', hw]

theorem mem_flaggedPins (s : State) (p : Pin) : p ∈ flaggedPins (view16 s.intf) ↔ flag p s = true := by
  rw [flaggedPins, List.mem_filter, logicalViewBits]
  exact and_iff_right (mem_allPins p)

theorem flaggedPins_pairwise (flags : BitVec 16) : List.Pairwise (· < ·) (flaggedPins flags) :=
  List.Pairwise.filter _ (by decide)

/-- Settles O55: the flagged pins, and one pin's flag. -/
theorem flagViews : Obligations.FlagViews := by
  intro s p clear hs he
  constructor
  · obtain ⟨t, hreturns, hintf⟩ := flagsNext_returns (op := .getInterruptPins clear)
      (result := fun f => .pins (flaggedPins f)) ⟨nofun, nofun⟩ hs rfl (fun _ => rfl) he
    exact ⟨t, _, hreturns, flaggedPins_pairwise _, mem_flaggedPins s, hintf⟩
  · have hview : (view16 s.intf).getLsbD p.val = flag p s := logicalViewBits s.intf p
    rw [← hview]
    exact flagsNext_returns (op := .isInterruptOnPin p.val clear) (result := fun f => .onPin (f.getLsbD p.val))
      ⟨nofun, nofun⟩ hs (if_pos (validPin_val p)) (fun _ => by rw [DriverOp.next, pinOfIndex_val]) he

/-! ### The captures -/

/-- R128: one entry per flagged pin, ascending, with the level it was captured at. -/
def reported (s : State) : List (Pin × Bool) := (flaggedPins (view16 s.intf)).map fun p => (p, capture p s)

theorem reported_pairwise (s : State) : List.Pairwise (fun x y => x.1 < y.1) (reported s) :=
  List.pairwise_map.2 (flaggedPins_pairwise _)

theorem mem_reported (s : State) (e : Pin × Bool) : e ∈ reported s ↔ flag e.1 s = true ∧ e.2 = capture e.1 s := by
  obtain ⟨p, v⟩ := e
  simp only [reported, List.mem_map, mem_flaggedPins, Prod.mk.injEq]
  constructor
  · rintro ⟨q, hq, rfl, rfl⟩
    exact ⟨hq, rfl⟩
  · rintro ⟨hp, rfl⟩
    exact ⟨p, hp, rfl, rfl⟩

theorem captureRead_of_flag {u : State} {b : Bank} {p : Pin} (hb : bankOf p = b) (hp : flag p u = true) :
    (captureRead b u).1.getLsbD (bitOf p) = capture p u :=
  hb ▸ captureRead_getLsbD hp

theorem FlagsLeft.capture_eq {intf : Banked Byte} {s t : State} (h : FlagsLeft intf s t) (p : Pin) :
    capture p t = capture p s := by
  rw [capture, h.cap, capture]

/-- R91, R128: the captures of bank A are read before its flags are acknowledged and those of bank B before its own are, so no
entry is a draw. -/
theorem captureList_eq_reported {s u v : State} (hu : FlagsLeft s.intf s u) (hv : FlagsLeft (s.intf.set .bankA 0) s v) :
    captureList (s.intf.b ++ s.intf.a) ((captureRead .bankB v).1 ++ (captureRead .bankA u).1) = reported s := by
  refine List.map_congr_left fun p hp => congrArg (Prod.mk p) ?_
  have hflag : flag p s = true := (mem_flaggedPins s p).1 hp
  have hview := logicalViewBits ⟨(captureRead .bankA u).1, (captureRead .bankB v).1⟩ p
  rw [pinBit] at hview
  cases hb : bankOf p with
  | bankA =>
    rw [hb] at hview
    have hu_flag : flag p u = true := by rwa [flag, hu.intf]
    exact hview.trans ((captureRead_of_flag hb hu_flag).trans (hu.capture_eq p))
  | bankB =>
    rw [hb] at hview
    have hv_flag : flag p v = true := by rwa [flag, hv.intf, pinBit_set, hb]
    exact hview.trans ((captureRead_of_flag hb hv_flag).trans (hv.capture_eq p))

section Capture

variable {fa fb ca cb : Byte} {acks : List Byte}

theorem captureNext_ends {clear : Bool}
    (h : (if clear then (captureList (fb ++ fa) (cb ++ ca))[acks.length]? else none) = none) :
    captureNext clear (fa :: fb :: ca :: cb :: acks) = .done (.captures (captureList (fb ++ fa) (cb ++ ca))) := by
  rw [captureNext, h]

theorem captureNext_acknowledges {e : Pin × Bool} (h : (captureList (fb ++ fa) (cb ++ ca))[acks.length]? = some e) :
    captureNext true (fa :: fb :: ca :: cb :: acks) = .issue (readReg .gpio (bankOf e.1)) := by
  rw [captureNext, if_pos rfl, h]

/-- R128: the reads that acknowledge, one for each entry still to come, keep the flags clear. -/
theorem resumes_acknowledging {n : Nat} {s : State} (hn : acks.length + n = (captureList (fb ++ fa) (cb ++ ca)).length)
    (hs : s.intf = ⟨0, 0⟩) (he : s.params.triggerSense = .edgeToRef) :
    Resumes (.getInterruptCapture true) (fa :: fb :: ca :: cb :: acks) n
      (.captures (captureList (fb ++ fa) (cb ++ ca))) (fun t => t.intf = ⟨0, 0⟩) s := by
  induction n generalizing acks s with
  | zero =>
    have hend : (captureList (fb ++ fa) (cb ++ ca))[acks.length]? = none := List.getElem?_eq_none hn.ge
    exact .done (captureNext_ends hend) fun t ht => ht.intf.trans hs
  | succ n ih =>
    have hentry := List.getElem?_eq_getElem (l := captureList (fb ++ fa) (cb ++ ca)) (i := acks.length) (by omega)
    refine .issue (captureNext_acknowledges hentry) (moves_readReg .gpio _ s) fun u hu => ?_
    have hleft := (FlagsLeft.refl s).read_gpio hu he
    rw [hs, noFlags_set] at hleft
    have hlength (v : Byte) : (acks ++ [v]).length + n = (captureList (fb ++ fa) (cb ++ ca)).length := by
      rw [List.length_append, List.length_singleton]
      omega
    exact ih (hlength _) hleft.intf (hleft.params ▸ he)

end Capture

/-- R128: the four reads, after which no flag is left, and then what the operation has still to do, `n` moves of it. -/
theorem getInterruptCapture_returns {clear : Bool} {n : Nat} {s : State} (hs : s.handle = .opened)
    (he : s.params.triggerSense = .edgeToRef)
    (h : ∀ ca cb u, captureList (s.intf.b ++ s.intf.a) (cb ++ ca) = reported s → FlagsLeft ⟨0, 0⟩ s u →
      Resumes (.getInterruptCapture clear) [s.intf.a, s.intf.b, ca, cb] n (.captures (reported s))
        (fun t => t.intf = ⟨0, 0⟩) u) :
    ∃ t, Returns (.getInterruptCapture clear) (n + 5) (.captures (reported s)) s t ∧ t.intf = ⟨0, 0⟩ := by
  refine Resumes.returns_of_opened (k := n + 4) ?_ ⟨nofun, nofun⟩ hs rfl
  refine resumes_of_flagReads (k := n + 2) rfl (fun _ => rfl) he fun u hu => ?_
  refine .issue rfl (moves_readReg .intcap .bankA u) fun v hv => .issue rfl (moves_readReg .intcap .bankB v) fun w hw => ?_
  have hackedA := hu.read_intcap (b := .bankA) hv he
  have hacked := hackedA.read_intcap (b := .bankB) hw he
  exact h _ _ w (captureList_eq_reported hu hackedA) hacked

/-- Settles O56: not clearing ends after the four reads; clearing adds one read for each entry. -/
theorem getInterruptCapture : Obligations.GetInterruptCapture := by
  intro s hs he
  refine ⟨reported s, reported_pairwise s, mem_reported s, ?_, ?_⟩
  · refine getInterruptCapture_returns (n := 0) hs he fun ca cb u hreported hu => ?_
    rw [← hreported]
    exact .done (captureNext_ends (clear := false) (acks := []) rfl) fun t ht => ht.intf.trans hu.intf
  · rw [Nat.add_comm]
    refine getInterruptCapture_returns (n := (reported s).length) hs he fun ca cb u hreported hu => ?_
    rw [← hreported]
    exact resumes_acknowledging (Nat.zero_add _) hu.intf (hu.params ▸ he)

end Sys2Proof.Machine

/-! SUPPORT. What the interrupt outputs show after an acknowledge (R106, R109, R141), that every step ends in a next state
(R132, R133), and what a refusal does (R134). -/

namespace Sys2Proof.Machine

/-- R106, R109: once its flags are cleared, a bank's output shows the other bank's flags where the outputs are mirrored, and
nothing otherwise. -/
theorem intActive_of_cleared {s t : State} {b c : Bank} (hc : c ≠ b) (hintf : t.intf = s.intf.set b 0)
    (hiocon : t.iocon = s.iocon) : intActive b t = (s.iocon.getLsbD 6 && s.intf.get c != 0) := by
  unfold intActive
  rw [hintf, hiocon]
  cases s.iocon.getLsbD 6 with
  | false => simp
  | true =>
    cases b <;> cases c
    case bankA.bankB | bankB.bankA => simp [Banked.set, Banked.get]
    all_goals exact absurd rfl hc

/-- R91 to R94, R106: an acknowledging read changes no level, no parameter and not the control register, and clears the flags
of its bank before the level conditions are evaluated. -/
theorem ackRead_completes {k : Kind} (hk : k = .gpio ∨ k = .intcap) (b : Bank) {s : State} (h : s.fate = .completes) :
    ∃ t, exec (readReg k b) s = .next t ∧ t.lvl = s.lvl ∧ t.params = s.params ∧ t.iocon = s.iocon ∧
      FlagsFollow (s.intf.set b 0) s t := by
  rcases hk with rfl | rfl
  · obtain ⟨t, v, ht, hframe, -, hflags⟩ := readInputRegister s b h
    exact ⟨t, ht, by rw [hframe], by rw [hframe], by rw [hframe], hflags⟩
  · obtain ⟨t, v, ht, hframe, -, hflags⟩ := readCaptureRegister s b h
    exact ⟨t, ht, by rw [hframe], by rw [hframe], by rw [hframe], hflags⟩

/-- Settles O29: `EDGE_TO_REF` raises no flag after the acknowledge, so the bank's flags stay clear. -/
theorem acknowledgeDeassertsOutput : Obligations.AcknowledgeDeassertsOutput := by
  intro s b c k h he hc hk
  obtain ⟨t, ht, hlvl, hparams, hiocon, hflags⟩ := ackRead_completes hk b h
  obtain ⟨hintf, hcap⟩ := hflags.of_edgeToRef hlvl (hparams ▸ he)
  exact ⟨t, ht, hintf, hcap, intActive_of_cleared hc hintf hiocon⟩

theorem moveThread_completes (n : Nat) (s : State) : ∃ t, moveThread n s = .next t := by
  unfold moveThread
  split
  · exact ⟨_, rfl⟩
  · split
    · exact ⟨_, rfl⟩
    · split
      · exact ⟨_, rfl⟩
      · split
        · exact ⟨_, rfl⟩
        · rename_i i _
          obtain ⟨u, hu⟩ := exec_completes i s
          rw [hu]
          exact ⟨_, rfl⟩

/-- R134: a word the decoder refuses ends in a next state too. -/
theorem serveDecoded_completes (d : Decoded) (s : State) : ∃ t, serveDecoded d s = .next t := by
  cases d with
  | instr i => exact exec_completes i s
  | refuse r => exact ⟨_, rfl⟩

theorem serve_completes (q : Request) (s : State) : ∃ t, serve q s = .next t := by
  cases q with
  | tx w f => exact serveDecoded_completes _ _
  | event w => exact serveDecoded_completes _ _
  | move n f => exact moveThread_completes n _
  | burst a n => exact ⟨_, rfl⟩
  | spawn program => exact ⟨_, rfl⟩
  | leaveScope n => exact ⟨_, rfl⟩

/-- Settles O30: with nothing asked of it the machine stays as it is, and every request is served. -/
theorem everyStepCompletes : Obligations.EveryStepCompletes := by
  intro s
  cases h : s.agenda with
  | nil => exact ⟨s, by rw [step, h]⟩
  | cons q rest => exact step_eq_serve h ▸ serve_completes q _

/-- Settles O32: an instruction that reached the chip, or failed, leaves `refused` as it was. -/
theorem refusalChangesNoRegister : Obligations.RefusalChangesNoRegister := by
  intro s t i h hs ht
  cases exec_cases h with
  | reached n u r hu hturn => simp [hturn, hu.refused, hs] at ht
  | missed n hturn => simp [hturn, hs] at ht
  | refused r _ hturn => exact ⟨r, hturn⟩

end Sys2Proof.Machine

/-! SUPPORT. The chip does not look at the host's side (R33, R142): what an instruction does commutes with any change of the
handle, the threads, the requests to come and the transport's verdict. With it, what a failed transaction does (R135). -/

namespace Sys2Proof.Machine

open Claims (plainReads ackReads writes eventOf)

/-- The chip of `s` with the host's side of `h`. -/
def State.withHost (s h : State) : State :=
  { s with handle := h.handle, threads := h.threads, agenda := h.agenda, fate := h.fate }

/-- R142: the effect neither looks at the host's side nor touches it. -/
def ChipOnly (e : State → State) : Prop := ∀ s h, e (s.withHost h) = (e s).withHost h

/-- R142: a read's effect likewise, and the byte it gives does not depend on the host's side. -/
def ChipOnlyRead (e : State → Byte × State) : Prop := ∀ s h, e (s.withHost h) = ((e s).1, (e s).2.withHost h)

/-! ### Effects that keep to the chip -/

section ChipOnly

variable {e : State → State}

/-- Such an effect leaves the host's side as it was. -/
theorem ChipOnly.withHost_self (he : ChipOnly e) (s : State) : (e s).withHost s = e s := (he s s).symm

theorem ChipOnly.fate (he : ChipOnly e) (s : State) : (e s).fate = s.fate :=
  (congrArg State.fate (he.withHost_self s)).symm

theorem ChipOnly.setFate (he : ChipOnly e) (s : State) (f : Fate) : e (s.setFate f) = (e s).setFate f :=
  calc e (s.setFate f) = (e s).withHost (s.setFate f) := he s (s.setFate f)
    _ = ((e s).withHost s).setFate f := rfl
    _ = (e s).setFate f := by rw [he.withHost_self]

theorem ChipOnly.setReply (he : ChipOnly e) {r : State → Reply} (hr : ∀ s h, r (s.withHost h) = r s) :
    ChipOnly fun s => (e s).setReply (r s) :=
  fun s h => congrArg₂ State.setReply (he s h) (hr s h)

theorem failOrReach_reached (e : State → State) {s : State} (h : Config.freeBit s.draws = true) :
    failOrReach e s = (e (s.drawn 1)).setReply .failed := by
  simp [failOrReach, drawBit, h]

theorem failOrReach_missed (e : State → State) {s : State} (h : Config.freeBit s.draws = false) :
    failOrReach e s = (s.drawn 1).setReply .failed := by
  simp [failOrReach, drawBit, h]

/-- R135: whether a failed transaction reached the chip is a draw, which does not depend on the host's side. -/
theorem ChipOnly.failOrReach (he : ChipOnly e) : ChipOnly (failOrReach e) := by
  intro s h
  cases hb : Config.freeBit s.draws with
  | false =>
    rw [failOrReach_missed e hb, failOrReach_missed e (s := s.withHost h) hb]
    rfl
  | true =>
    rw [failOrReach_reached e hb, failOrReach_reached e (s := s.withHost h) hb]
    exact congrArg (·.setReply .failed) (he (s.drawn 1) h)

end ChipOnly

section ChipOnlyRead

variable {e : State → Byte × State}

theorem ChipOnlyRead.effect (he : ChipOnlyRead e) : ChipOnly fun s => (e s).2 :=
  fun s h => congrArg Prod.snd (he s h)

theorem ChipOnlyRead.reply (he : ChipOnlyRead e) (s h : State) :
    Reply.value (e (s.withHost h)).1 = .value (e s).1 :=
  congrArg (Reply.value ·.1) (he s h)

end ChipOnlyRead

theorem resolvePin_chipOnly (p : Pin) : ChipOnly (resolvePin p) := fun _ _ => rfl

theorem resolveBit_chipOnly (b : Bank) (m : Byte) (k : Fin 8) : ChipOnly (resolveBit b m · k) := by
  intro s h
  unfold resolveBit
  split
  · exact resolvePin_chipOnly _ s h
  · rfl

theorem resolveChanged_chipOnly (b : Bank) (m : Byte) : ChipOnly (resolveChanged b m) := by
  intro s h
  unfold resolveChanged
  induction allBits generalizing s with
  | nil => rfl
  | cons k ks ih =>
    have hbit : resolveBit b m (s.withHost h) k = (resolveBit b m s k).withHost h := resolveBit_chipOnly b m k s h
    rw [List.foldl_cons, List.foldl_cons, hbit, ih]

theorem drivePin_chipOnly (p : Pin) (v : Drive) : ChipOnly (drivePin p v) := fun _ _ => rfl

theorem storeIodir_chipOnly (b : Bank) (d : Byte) : ChipOnly (storeIodir b d) :=
  fun s h => congrArg levelEval (resolveChanged_chipOnly b (s.iodir.get b ^^^ d) (s.setIodir b d) h)

theorem storeGppu_chipOnly (b : Bank) (d : Byte) : ChipOnly (storeGppu b d) :=
  fun s h => congrArg levelEval (resolveChanged_chipOnly b (s.gppu.get b ^^^ d) (s.setGppu b d) h)

theorem storeOlat_chipOnly (b : Bank) (d : Byte) : ChipOnly (storeOlat b d) :=
  fun s h => congrArg levelEval (resolveChanged_chipOnly b (s.olat.get b ^^^ d) (s.setOlat b d) h)

theorem storeIntf_chipOnly (b : Bank) (d : Byte) : ChipOnly (storeIntf b d) := by
  intro s h
  rw [storeIntf_eq, storeIntf_eq]
  rfl

/-! ### The kinds of instruction -/

/-- R86: a write of the control register is well-formed where it writes 0 to bit 7. -/
theorem wellFormed_wrIocon {d : Byte} : (Instr.wrIocon d).WellFormed ↔ d.getLsbD 7 = false :=
  iff_of_eq (Bool.not_eq_true' _)

/-- R54, R86: an instruction is a plain read, an acknowledging read or a write that is well-formed, the reserved write of the
control register, or an event. -/
inductive InstrKind (i : Instr) : Prop where
  | plain (hi : i ∈ plainReads)
  | sideEffect (hi : i ∈ ackReads ∨ ∃ d, i ∈ writes d) (hwf : i.WellFormed)
  | reserved (d : Byte) (hi : i = .wrIocon d) (hd : d.getLsbD 7 = true)
  | event (v : Drive) (p : Pin) (hi : i = eventOf v p)

theorem instrKind (i : Instr) : InstrKind i := by
  cases i with
  | evD0 p => exact .event .d0 p rfl
  | evD1 p => exact .event .d1 p rfl
  | evZ p => exact .event .z p rfl
  | rdGpioA | rdGpioB | rdIntcapA | rdIntcapB => exact .sideEffect (.inl (by decide)) rfl
  | wrIocon d =>
    cases hd : d.getLsbD 7 with
    | false => exact .sideEffect (.inr ⟨d, by simp [writes]⟩) (wellFormed_wrIocon.2 hd)
    | true => exact .reserved d rfl hd
  | wrIodirA d | wrIodirB d | wrGppuA d | wrGppuB d | wrOlatA d | wrOlatB d | wrGpintenA d | wrGpintenB d
  | wrIntconA d | wrIntconB d | wrDefvalA d | wrDefvalB d | wrIntfA d | wrIntfB d =>
    exact .sideEffect (.inr ⟨d, by simp [writes]⟩) rfl
  | _ => exact .plain (by decide)

/-- R41: every plain read is a `readTx`. -/
theorem exec_plainRead {i : Instr} (hi : i ∈ plainReads) : ∃ e, ChipOnlyRead e ∧ ∀ s, exec i s = readTx e s := by
  cases i with
  | rdIocon => exact ⟨controlRead, fun _ _ => rfl, fun _ => rfl⟩
  | rdIodirA | rdIodirB | rdGppuA | rdGppuB | rdOlatA | rdOlatB | rdGpintenA | rdGpintenB
  | rdIntconA | rdIntconB | rdDefvalA | rdDefvalB | rdIntfA | rdIntfB =>
    refine ⟨_, ?_, fun _ => rfl⟩
    exact fun _ _ => rfl
  | _ => simp [plainReads] at hi

/-- R40, R135: an instruction that is a transaction with an effect `e` on the chip and gives `r` where it completes. -/
structure SideEffect (i : Instr) (e : State → State) (r : State → Reply) : Prop where
  chipOnly : ChipOnly e
  reply : ∀ s h, r (s.withHost h) = r s
  completes : ∀ s, s.fate = .completes → exec i s = .next ((e s).setReply (r s))
  fails : ∀ s, s.fate = .fails → exec i s = .next (failOrReach e s)

theorem SideEffect.of_ackReadTx {i : Instr} {e : State → Byte × State} (he : ChipOnlyRead e)
    (hi : ∀ s, exec i s = ackReadTx e s) : SideEffect i (fun s => (e s).2) (fun s => .value (e s).1) where
  chipOnly := he.effect
  reply := he.reply
  completes s hs := (hi s).trans (ackReadTx_completes e hs)
  fails s hs := (hi s).trans (by simp [ackReadTx, hs])

theorem SideEffect.of_writeTx {i : Instr} {d : Byte} {e : State → State} (he : ChipOnly e)
    (hi : ∀ s, exec i s = writeTx d e s) : SideEffect i e (fun _ => .written d) where
  chipOnly := he
  reply _ _ := rfl
  completes s hs := (hi s).trans (writeTx_completes d e hs)
  fails s hs := (hi s).trans (by simp [writeTx, hs])

theorem exists_sideEffect {i : Instr} (hi : i ∈ ackReads ∨ ∃ d, i ∈ writes d) (hwf : i.WellFormed) :
    ∃ e r, SideEffect i e r := by
  cases i with
  | rdGpioA | rdGpioB | rdIntcapA | rdIntcapB =>
    refine ⟨_, _, .of_ackReadTx ?_ fun _ => rfl⟩
    exact fun _ _ => rfl
  | wrIodirA d | wrIodirB d => exact ⟨_, _, .of_writeTx (storeIodir_chipOnly _ d) fun _ => rfl⟩
  | wrGppuA d | wrGppuB d => exact ⟨_, _, .of_writeTx (storeGppu_chipOnly _ d) fun _ => rfl⟩
  | wrOlatA d | wrOlatB d => exact ⟨_, _, .of_writeTx (storeOlat_chipOnly _ d) fun _ => rfl⟩
  | wrIntfA d | wrIntfB d => exact ⟨_, _, .of_writeTx (storeIntf_chipOnly _ d) fun _ => rfl⟩
  | wrGpintenA d | wrGpintenB d | wrIntconA d | wrIntconB d | wrDefvalA d | wrDefvalB d =>
    refine ⟨_, _, .of_writeTx ?_ fun _ => rfl⟩
    exact fun _ _ => rfl
  | wrIocon d =>
    exact ⟨_, _, .of_writeTx (e := storeIocon d) (fun _ _ => rfl) (exec_wrIocon (wellFormed_wrIocon.1 hwf))⟩
  | _ => simp [ackReads, writes] at hi

/-! ### The chip and the host -/

/-- R142: under either verdict of the transport an instruction is one effect on the chip. -/
theorem exec_chipOnly (i : Instr) (f : Fate) : ∃ g, ChipOnly g ∧ ∀ s, s.fate = f → exec i s = .next (g s) := by
  cases instrKind i with
  | plain hi =>
    obtain ⟨e, he, hexec⟩ := exec_plainRead hi
    cases f with
    | completes => exact ⟨_, he.effect.setReply he.reply, fun s hs => (hexec s).trans (readTx_completes e hs)⟩
    | fails => exact ⟨(·.setReply .failed), fun _ _ => rfl, fun s hs => (hexec s).trans (readTx_fails e hs)⟩
  | sideEffect hi hwf =>
    obtain ⟨e, r, he⟩ := exists_sideEffect hi hwf
    cases f with
    | completes => exact ⟨_, he.chipOnly.setReply he.reply, he.completes⟩
    | fails => exact ⟨_, he.chipOnly.failOrReach, he.fails⟩
  | reserved d hi hd =>
    subst hi
    exact ⟨fun s => s.markRefused.setReply (.refused (.reservedConfig d)), fun _ _ => rfl,
      fun s _ => exec_wrIocon_reserved hd s⟩
  | event v p hi =>
    subst hi
    exact ⟨_, drivePin_chipOnly p v, fun s _ => exec_eventOf v p s⟩

/-- Settles O34: the instruction is one effect on the chip, which the change of the host's side commutes with. -/
theorem chipIgnoresTheHost : Obligations.ChipIgnoresTheHost := by
  intro i s t h ths ag ht
  obtain ⟨g, hg, hexec⟩ := exec_chipOnly i s.fate
  obtain rfl : g s = t := by
    rw [hexec s rfl] at ht
    injection ht
  have hfate : (g s).fate = s.fate := hg.fate s
  calc exec i { s with handle := h, threads := ths, agenda := ag }
      = .next (g (s.withHost { s with handle := h, threads := ths, agenda := ag })) := hexec _ rfl
    _ = .next ((g s).withHost { s with handle := h, threads := ths, agenda := ag }) := by rw [hg]
    _ = .next { g s with handle := h, threads := ths, agenda := ag } := by rw [State.withHost, ← hfate]

/-! ### Failed transactions -/

/-- R135: a failed transaction was not made, or its effect on the chip is that of the completed one. -/
theorem failOrReach_eq {e : State → State} (he : ChipOnly e) {s : State} (hs : s.fate = .fails) :
    failOrReach e s = { s with draws := s.draws + 1, reply := .failed } ∨
      failOrReach e s =
        { e { s with draws := s.draws + 1, fate := .completes } with fate := .fails, reply := .failed } := by
  refine (failOrReach_cases e s).symm.imp_right fun hreach => ?_
  have hback : ((s.drawn 1).setFate .completes).setFate .fails = s.drawn 1 := by rw [← hs]; rfl
  calc failOrReach e s = (e (s.drawn 1)).setReply .failed := hreach
    _ = ((e ((s.drawn 1).setFate .completes)).setFate .fails).setReply .failed := by rw [← he.setFate, hback]

/-- Settles O33: a failed plain read is a failed `readTx`, and the other transactions draw whether they were made. -/
theorem failedTransaction : Obligations.FailedTransaction := by
  intro s i hs
  refine ⟨fun hi => ?_, fun hi hwf => ?_⟩
  · obtain ⟨e, -, hexec⟩ := exec_plainRead hi
    exact (hexec s).trans (readTx_fails e hs)
  · obtain ⟨e, r, he⟩ := exists_sideEffect hi hwf
    have hfails := he.fails s hs
    rcases failOrReach_eq he.chipOnly hs with hmissed | hreached
    · exact .inl (hfails.trans (congrArg _ hmissed))
    · exact .inr ⟨_, he.completes _ rfl, hfails.trans (congrArg _ hreached)⟩

end Sys2Proof.Machine

/-! SUPPORT. Power-on reset (R148, R149): each pin is resolved once, and nothing else changes. -/

namespace Sys2Proof.Machine

/-- R149: a loop that settles pins writes levels and counts draws, nothing else. -/
theorem foldl_settlePin_frame (l : List Pin) (s : State) :
    l.foldl settlePin s = { s with lvl := (l.foldl settlePin s).lvl, draws := (l.foldl settlePin s).draws } := by
  induction l generalizing s with
  | nil => rfl
  | cons p l ih =>
    rw [List.foldl_cons, ih]
    rfl

/-- R149: such a loop leaves a pin at the level that is fixed for it, if it resolves the pin or finds it there. -/
theorem level_foldl_settlePin {l : List Pin} {s : State} {q : Pin} {v : Bool} (hq : determined q s = some v)
    (h : q ∈ l ∨ level q s = v) : level q (l.foldl settlePin s) = v := by
  induction l generalizing s with
  | nil => exact h.resolve_left List.not_mem_nil
  | cons p l ih =>
    have hsettled : determined q (settlePin s p) = some v := hq
    refine ih hsettled ?_
    rw [level_settlePin]
    by_cases hqp : q = p
    · exact .inr (by rw [if_pos hqp, ← hqp, resolve_eq hq])
    · rw [if_neg hqp]
      exact h.imp_left fun hmem => (List.mem_cons.1 hmem).resolve_left hqp

/-- R148: power-on reset changes no field of the reset state but the parameters, the drives, the levels and the draws. -/
theorem powerOn_frame (params : Params) (ext : Vector Drive 16) :
    powerOn params ext = { State.reset with
      params := params, ext := ext, lvl := (powerOn params ext).lvl, draws := (powerOn params ext).draws } :=
  foldl_settlePin_frame allPins { State.reset with params := params, ext := ext }

/-- R149: power-on reset resolves every pin. -/
theorem powerOn_levelsSettled (params : Params) (ext : Vector Drive 16) : LevelsSettled (powerOn params ext) := by
  intro p v hv
  rw [powerOn_frame] at hv
  exact level_foldl_settlePin (s := { State.reset with params := params, ext := ext }) hv (.inl (mem_allPins p))

/-- Settles O36: the registers are those of the reset state, and every pin has been resolved. -/
theorem powerOnState : Obligations.PowerOnState := by
  intro params ext
  refine ⟨_, powerOn_frame params ext, ?_⟩
  have hlevels := powerOn_levelsSettled params ext
  rw [powerOn_frame] at hlevels
  exact ⟨rfl, rfl, rfl, rfl, rfl, rfl, rfl, rfl, rfl, rfl, rfl, rfl, rfl, hlevels⟩

theorem putPin_pinBit (x : Banked Byte) (p : Pin) : putPin x p (pinBit x p) = x := by
  refine banked_ext fun q => ?_
  rw [pinBit_putPin]
  split
  · next hq => rw [hq]
  · rfl

/-- R96: a pin that is at the level fixed for it settles without a change or a draw. -/
theorem settlePin_of_settled {s : State} {p : Pin} (h : determined p s = some (level p s)) : settlePin s p = s := by
  have hdraws : resolveDraws p s = 0 := by simp [resolveDraws, h]
  have hlvl : putPin s.lvl p (level p s) = s.lvl := putPin_pinBit s.lvl p
  rw [settlePin, resolve_eq h, hdraws, State.setLevel, hlvl]
  rfl

theorem foldl_settlePin_of_settled {s : State} (h : ∀ p, determined p s = some (level p s)) (l : List Pin) :
    l.foldl settlePin s = s := by
  induction l with
  | nil => rfl
  | cons p l ih => rw [List.foldl_cons, settlePin_of_settled (h p), ih]

/-- Settles O37: every pin of the reset state is an input driven low and at that level, so resolving it changes nothing. -/
theorem resetIsPowerOnAllLow : Obligations.ResetIsPowerOnAllLow :=
  have hlow : ∀ p, determined p State.reset = some (level p State.reset) := by decide
  (foldl_settlePin_of_settled hlow allPins).symm

/-- Settles O38: the levels are settled by power-on reset, and under the default `EDGE_TO_REF` no pin is mismatched. -/
theorem consistentAtReset : Obligations.ConsistentAtReset := by
  refine ⟨⟨rfl, rfl⟩, ?_, fun p hp => ?_, by decide⟩
  · rw [resetIsPowerOnAllLow]
    exact powerOn_levelsSettled _ _
  · rw [mismatched_of_edgeToRef rfl] at hp
    cases hp

end Sys2Proof.Machine

/-! SUPPORT. Runs in which the agents take turns (R44, R145): one move of one thread among several, and two threads that modify
one register at a time (R153). -/

namespace Sys2Proof

theorem Banked.set_set {α : Type} (x : Banked α) (b : Bank) (v w : α) : (x.set b v).set b w = x.set b w := by
  cases b <;> rfl

end Sys2Proof

namespace Sys2Proof.Machine

open Claims (interleaved)

/-! ### One move -/

/-- The thread, in the middle of `op`, when its transactions have moved these bytes: `op` has returned, or it waits with a
transaction to issue. -/
def Thread.advance (x : Thread) (op : DriverOp) (moved : List Byte) : Thread :=
  match op.next moved with
  | .done r => x.finish r
  | .issue _ => x.goOn moved

theorem advanceOp_eq (n : Nat) (x : Thread) (op : DriverOp) (moved : List Byte) (s : State) :
    advanceOp n x op moved s = s.setThread n (x.advance op moved) := by
  unfold advanceOp Thread.advance
  cases op.next moved <;> rfl

section Move

variable {n : Nat} {s t : State} {x : Thread} {op : DriverOp} {rest : List DriverOp} {moved : List Byte} {i : Instr} {v : Byte}
  {agenda : List Request}

/-- R113, R114: a thread begins an operation that passes its checks. -/
theorem step_begins (hagenda : s.agenda = .move n .completes :: agenda) (hx : s.threads[n]? = some x)
    (hprogram : x.program = op :: rest) (hphase : x.phase = .start) (hop : ChecksHandle op) (hs : s.handle = .opened)
    (hpin : op.pinError = none) :
    step s = .next (({ s with agenda := agenda, fate := .completes } : State).setThread n (x.goOn [])) := by
  rw [step_eq_serve hagenda, ← beginOp_opened (s := { s with agenda := agenda, fate := .completes }) hop hs hpin]
  exact moveThread_start hx hprogram hphase

/-- R36, R45: a thread in the middle of an operation issues the next transaction, and it completes. -/
theorem step_issues (hagenda : s.agenda = .move n .completes :: agenda) (hx : s.threads[n]? = some x)
    (hprogram : x.program = op :: rest) (hphase : x.phase = .running moved) (hi : op.next moved = .issue i)
    (ht : exec i { s with agenda := agenda, fate := .completes } = .next t) (hv : t.reply = .value v ∨ t.reply = .written v) :
    step s = .next (t.setThread n (x.advance op (moved ++ [v]))) := by
  rw [step_eq_serve hagenda, ← advanceOp_eq, ← afterTransaction_moved hv]
  exact moveThread_running hx hprogram hphase hi ht

end Move

/-! ### Threads in turn -/

/-- From the chip as in `s`, with the threads at `ths`, the moves of the threads `ns` in this order leave `Q`. -/
def TurnsLeave (ths : List Thread) (ns : List Nat) (Q : State → Prop) (s : State) : Prop :=
  ∀ u, SameApartFromThreads s u → u.threads = ths → u.agenda = ns.map (.move · .completes) →
    ∃ t, Host.Core.run Sys2Proof.core ns.length u = .next t ∧ Q t

section Turns

variable {ths : List Thread} {n : Nat} {ns : List Nat} {Q : State → Prop} {s : State} {x : Thread} {op : DriverOp}
  {rest : List DriverOp} {moved : List Byte} {i : Instr} {v : Byte}

theorem TurnsLeave.done (h : ∀ t, SameApartFromThreads s t → t.threads = ths → Q t) : TurnsLeave ths [] Q s :=
  fun u hu hthreads _ => ⟨u, rfl, h u hu hthreads⟩

/-- R113, R114: the next move begins an operation that passes its checks. -/
theorem TurnsLeave.begin (hx : ths[n]? = some x) (hprogram : x.program = op :: rest) (hphase : x.phase = .start)
    (hop : ChecksHandle op) (hs : s.handle = .opened) (hpin : op.pinError = none)
    (h : TurnsLeave (ths.set n (x.goOn [])) ns Q s) : TurnsLeave ths (n :: ns) Q s := by
  intro u hu hthreads hagenda
  have hhandle : u.handle = .opened := by
    obtain ⟨_, _, _, rfl⟩ := hu
    exact hs
  rw [List.length_cons, run_succ (step_begins hagenda (hthreads ▸ hx) hprogram hphase hop hhandle hpin)]
  exact h _ (hu.trans ⟨_, _, _, rfl⟩) (congrArg (·.set n (x.goOn [])) hthreads) rfl

/-- R44, R45: the next move runs one transaction of its thread's operation. -/
theorem TurnsLeave.issue (hx : ths[n]? = some x) (hprogram : x.program = op :: rest) (hphase : x.phase = .running moved)
    (hi : op.next moved = .issue i) (hm : Moves i v s)
    (h : ∀ u, Transaction i s u → TurnsLeave (ths.set n (x.advance op (moved ++ [v]))) ns Q u) :
    TurnsLeave ths (n :: ns) Q s := by
  intro u hu hthreads hagenda
  have hpopped : SameApartFromThreads s { u with agenda := ns.map (.move · .completes), fate := .completes } :=
    hu.trans ⟨_, _, _, rfl⟩
  obtain ⟨w, reply, hreached, hexec, hreply⟩ := exec_completed (i := i) rfl (hpopped.moves hm)
  rw [List.length_cons, run_succ (step_issues hagenda (hthreads ▸ hx) hprogram hphase hi hexec hreply)]
  refine h _ ((hreached.transaction reply).of_sameBefore hpopped) _ ⟨_, _, _, rfl⟩ ?_ hreached.agenda
  exact congrArg (·.set n (x.advance op (moved ++ [v]))) (hreached.threads.trans hthreads)

end Turns

/-! ### The lost update -/

theorem setPinMode_next (p : Pin) (mode : PinMode) (moved : List Byte) :
    (DriverOp.setPinMode p.val mode).next moved = setPinModeNext (bankOf p) (bitOf p) mode moved := by
  simp [DriverOp.next]

/-- R62, R64, R66, R68: a write of the direction register, whose byte a write of the pull-up register keeps. -/
theorem iodir_of_writes {b c : Bank} {d e : Byte} {s t u : State} (h : Transaction (writeIodir b d) s t)
    (h' : Transaction (writeGppu c e) t u) : u.iodir = s.iodir.set b d :=
  calc u.iodir = t.iodir := (h'.stored (update_writeGppu ..)).1.iodir
    _ = s.iodir.set b d := (h.stored (update_writeIodir ..)).1.iodir

/-- R153: two threads modify the direction register of one bank, both reading it before either writes: what is left is what
the second makes of the register as it was. -/
theorem interleaved_setPinMode {s : State} {p q : Pin} (mode mode' : PinMode) (hs : s.handle = .opened)
    (hb : bankOf p = bankOf q) :
    ∃ t, Host.Core.run Sys2Proof.core 10 (interleaved (.setPinMode p.val mode) (.setPinMode q.val mode') s) = .next t ∧
      t.threads = [⟨[], .start, [.ok]⟩, ⟨[], .start, [.ok]⟩] ∧ t.iodir = putPin s.iodir q (modeBits mode').1 := by
  have hp (moved) : (DriverOp.setPinMode p.val mode).next moved = setPinModeNext (bankOf q) (bitOf p) mode moved :=
    hb ▸ setPinMode_next p mode moved
  have hq := setPinMode_next q mode'
  suffices h : TurnsLeave [⟨[.setPinMode p.val mode], .start, []⟩, ⟨[.setPinMode q.val mode'], .start, []⟩]
      [0, 1, 0, 0, 1, 1, 0, 0, 1, 1] _ s from h _ ⟨_, _, _, rfl⟩ rfl rfl
  refine .begin rfl rfl rfl ⟨nofun, nofun⟩ hs (if_pos (validPin_val p)) ?_
  refine .begin rfl rfl rfl ⟨nofun, nofun⟩ hs (if_pos (validPin_val q)) ?_
  refine .issue rfl rfl rfl (hp _) (moves_readReg .iodir _ s) fun u₁ h₁ => ?_
  refine .issue rfl rfl rfl (hp _) (moves_readReg .gppu _ u₁) fun u₂ h₂ => ?_
  refine .issue rfl rfl rfl (hq _) (moves_readReg .iodir _ u₂) fun u₃ h₃ => ?_
  refine .issue rfl rfl rfl (hq _) (moves_readReg .gppu _ u₃) fun u₄ h₄ => ?_
  refine .issue rfl rfl rfl (hp _) (moves_writeIodir _ _ u₄) fun u₅ h₅ => ?_
  refine .issue rfl rfl rfl (hp _) (moves_writeGppu _ _ u₅) fun u₆ h₆ => ?_
  refine .issue rfl rfl rfl (hq _) (moves_writeIodir _ _ u₆) fun u₇ h₇ => ?_
  refine .issue rfl rfl rfl (hq _) (moves_writeGppu _ _ u₇) fun u₈ h₈ => .done fun t ht hthreads => ⟨hthreads, ?_⟩
  have hread : u₂.iodir = s.iodir := (h₁.same_of_read.trans h₂.same_of_read).iodir
  have hread' : u₄.iodir = u₂.iodir := (h₃.same_of_read.trans h₄.same_of_read).iodir
  have hkept : t.iodir = u₈.iodir := by
    obtain ⟨_, _, _, rfl⟩ := ht
    rfl
  rw [hkept, iodir_of_writes h₇ h₈, iodir_of_writes h₅ h₆, Banked.set_set, hread', readByte, hread]
  rfl

/-- Settles O58: the second thread's write puts its own pin's bit in the register as it was before the first one's. -/
theorem lostUpdate : Obligations.LostUpdate := by
  intro s p q hs hpq hb
  obtain ⟨t, hrun, hthreads, hiodir⟩ := interleaved_setPinMode .output .output hs hb
  exact ⟨t, hrun, hthreads, by rw [hiodir, pinBit_putPin, if_neg hpq], by rw [hiodir, pinBit_putPin, if_pos rfl]; rfl⟩

end Sys2Proof.Machine

/-! SUPPORT. The window between the flag reads and the capture reads of `getInterruptCapture` (R157). -/

namespace Sys2Proof.Machine

open Claims (eventOf duringCapture)

/-! ### The flag reads, exactly -/

/-- R103: `level_eval` is without effect under `EDGE_TO_REF`. -/
theorem levelEval_of_edgeToRef {s : State} (he : s.params.triggerSense = .edgeToRef) : levelEval s = s := by
  obtain ⟨hintf, hcap⟩ := (levelEval_flagsFollow s).of_edgeToRef rfl he
  rw [levelEval_frame, hintf, hcap]

/-- R87, R89: under `EDGE_TO_REF` a completed read of a flag register gives the flags, and changes nothing of the chip. -/
theorem exec_readReg_intf {s : State} (b : Bank) (hs : s.fate = .completes) (he : s.params.triggerSense = .edgeToRef) :
    exec (readReg .intf b) s = .next (s.setReply (.value (s.intf.get b))) := by
  have hexec : exec (readReg .intf b) s = readStored (·.intf.get b) s := by cases b <;> rfl
  rw [hexec, readStored, readTx_completes _ hs, levelEval_of_edgeToRef he]

/-- The chip of `s` while the one thread's `getInterruptCapture` has moved these bytes, the last reply and the requests to come
being these. -/
def capturing (clear : Bool) (moved : List Byte) (reply : Reply) (agenda : List Request) (s : State) : State :=
  { s with
    threads := [⟨[.getInterruptCapture clear], .running moved, []⟩]
    agenda := agenda
    fate := .completes
    reply := reply }

section FlagReads

variable (clear : Bool) (reply : Reply) (agenda : List Request) {s : State}

theorem step_readsFlagsA (he : s.params.triggerSense = .edgeToRef) :
    step (capturing clear [] reply (.move 0 .completes :: agenda) s) =
      .next (capturing clear [s.intf.a] (.value s.intf.a) agenda s) :=
  step_issues (s := capturing clear [] reply (.move 0 .completes :: agenda) s) rfl rfl rfl rfl rfl
    (exec_readReg_intf .bankA rfl he) (.inl rfl)

theorem step_readsFlagsB (he : s.params.triggerSense = .edgeToRef) (v : Byte) :
    step (capturing clear [v] reply (.move 0 .completes :: agenda) s) =
      .next (capturing clear [v, s.intf.b] (.value s.intf.b) agenda s) :=
  step_issues (s := capturing clear [v] reply (.move 0 .completes :: agenda) s) rfl rfl rfl rfl rfl
    (exec_readReg_intf .bankB rfl he) (.inl rfl)

/-- R113, R125: the first three moves check the handle and read the flags of both banks. -/
theorem run_flagReads (w : Word) (j k : Nat) (hs : s.handle = .opened) (he : s.params.triggerSense = .edgeToRef) :
    Host.Core.run Sys2Proof.core (k + 3) (duringCapture clear w j s) =
      Host.Core.run Sys2Proof.core k (capturing clear [s.intf.a, s.intf.b] (.value s.intf.b)
        (requestOf (some w) :: List.replicate (2 + j) (.move 0 .completes)) s) := by
  have hbegins : step (duringCapture clear w j s) = .next (capturing clear [] s.reply (.move 0 .completes ::
      .move 0 .completes :: requestOf (some w) :: List.replicate (2 + j) (.move 0 .completes)) s) :=
    step_begins (s := duringCapture clear w j s) rfl rfl rfl rfl ⟨nofun, nofun⟩ hs rfl
  rw [run_succ hbegins, run_succ (step_readsFlagsA _ _ _ he), run_succ (step_readsFlagsB _ _ _ he _)]

end FlagReads

/-- R98 to R100, R142: the environment's event is served next, and does to the chip what it does by itself. -/
theorem step_eventWhileCapturing (clear : Bool) (moved : List Byte) (reply : Reply) (agenda : List Request) (d : Drive)
    (p : Pin) (s : State) :
    step (capturing clear moved reply (requestOf (some (eventWord d p)) :: agenda) s) =
      .next (capturing clear moved reply agenda (drivePin p d s)) := by
  rw [step_event rfl (decode_eventWord _ d p), exec_eventOf]
  rfl

/-! ### The reads that acknowledge -/

theorem FlagsLeft.of_sameAfter {intf : Banked Byte} {s t u : State} (h : FlagsLeft intf s t)
    (hu : SameApartFromThreads t u) : FlagsLeft intf s u := by
  obtain ⟨_, _, _, rfl⟩ := hu
  exact ⟨h.intf, h.cap, h.params⟩

section Acknowledging

variable {fa fb ca cb : Byte} {acks : List Byte} {n : Nat} {c s : State}

/-- R128: the reads that acknowledge, one for each entry still to come, keep the flags clear and, beyond
`resumes_acknowledging`, every capture. -/
theorem resumes_acknowledging_flagsLeft (hn : acks.length + n = (captureList (fb ++ fa) (cb ++ ca)).length)
    (hs : FlagsLeft ⟨0, 0⟩ c s) (he : c.params.triggerSense = .edgeToRef) :
    Resumes (.getInterruptCapture true) (fa :: fb :: ca :: cb :: acks) n
      (.captures (captureList (fb ++ fa) (cb ++ ca))) (FlagsLeft ⟨0, 0⟩ c) s := by
  induction n generalizing acks s with
  | zero =>
    have hend : (captureList (fb ++ fa) (cb ++ ca))[acks.length]? = none := List.getElem?_eq_none hn.ge
    exact .done (captureNext_ends hend) fun _ => hs.of_sameAfter
  | succ n ih =>
    have hentry := List.getElem?_eq_getElem (l := captureList (fb ++ fa) (cb ++ ca)) (i := acks.length) (by omega)
    have hlength (v : Byte) : (acks ++ [v]).length + n = (captureList (fb ++ fa) (cb ++ ca)).length := by
      rw [List.length_append, List.length_singleton]
      omega
    refine .issue (captureNext_acknowledges hentry) (moves_readReg .gpio _ s) fun u hu => ih (hlength _) ?_
    exact noFlags_set _ ▸ hs.read_gpio hu he

/-- R128: what the operation has still to do after its four reads, clearing or not. -/
theorem resumes_afterReads (clear : Bool) (hs : FlagsLeft ⟨0, 0⟩ c s) (he : c.params.triggerSense = .edgeToRef) :
    Resumes (.getInterruptCapture clear) [fa, fb, ca, cb] (if clear then (captureList (fb ++ fa) (cb ++ ca)).length else 0)
      (.captures (captureList (fb ++ fa) (cb ++ ca))) (FlagsLeft ⟨0, 0⟩ c) s := by
  cases clear with
  | false => exact .done (captureNext_ends (clear := false) (acks := []) rfl) fun _ => hs.of_sameAfter
  | true => exact resumes_acknowledging_flagsLeft (acks := []) (Nat.zero_add _) hs he

end Acknowledging

/-! ### The lost trigger -/

theorem pinBit_noFlags (p : Pin) : pinBit ⟨0, 0⟩ p = false := by
  revert p
  decide

/-- R128, R157: the entries are the pins flagged when the flags were read, with the levels captured then, where the chip has
since kept those pins' flags and captures. -/
theorem captureList_of_kept {s c v : State} (hkept : ∀ q, flag q s = true → flag q c = true ∧ capture q c = capture q s)
    (hv : FlagsLeft (c.intf.set .bankA 0) c v) :
    captureList (s.intf.b ++ s.intf.a) ((captureRead .bankB v).1 ++ (captureRead .bankA c).1) = reported s := by
  have hcaps := List.map_inj_left.1 (captureList_eq_reported (FlagsLeft.refl c) hv)
  refine List.map_congr_left fun q hq => ?_
  obtain ⟨hflag, hcap⟩ := hkept q ((mem_flaggedPins s q).1 hq)
  rw [hcaps q ((mem_flaggedPins c q).2 hflag), hcap]

/-- R157: from the flags as read in `s` and the chip as in `c`, the operation reports the pins flagged in `s`, and acknowledges
every flag of `c`. -/
theorem resumes_captureReads {s c : State} {clear : Bool} {n : Nat} (hn : n = if clear then (reported s).length else 0)
    (he : c.params.triggerSense = .edgeToRef)
    (hkept : ∀ q, flag q s = true → flag q c = true ∧ capture q c = capture q s) :
    Resumes (.getInterruptCapture clear) [s.intf.a, s.intf.b] (n + 2) (.captures (reported s)) (FlagsLeft ⟨0, 0⟩ c) c := by
  subst hn
  refine .issue rfl (moves_readReg .intcap .bankA c) fun v hv => .issue rfl (moves_readReg .intcap .bankB v) fun w hw => ?_
  have hackedA := (FlagsLeft.refl c).read_intcap (b := .bankA) hv he
  have hacked := hackedA.read_intcap (b := .bankB) hw he
  have hafter := resumes_afterReads (fa := s.intf.a) (fb := s.intf.b) (ca := (captureRead .bankA c).1)
    (cb := (captureRead .bankB v).1) clear hacked he
  rwa [captureList_of_kept hkept hackedA] at hafter

/-- R157: the moves after the event, which left the chip as in `c`. -/
theorem run_captureReads {s c : State} {clear : Bool} {n : Nat} (reply : Reply)
    (hn : n = if clear then (reported s).length else 0) (he : c.params.triggerSense = .edgeToRef)
    (hkept : ∀ q, flag q s = true → flag q c = true ∧ capture q c = capture q s) :
    ∃ t, Host.Core.run Sys2Proof.core (n + 2) (capturing clear [s.intf.a, s.intf.b] reply
        (List.replicate (n + 2) (.move 0 .completes)) c) = .next t ∧
      t.threads = [⟨[], .start, [.captures (reported s)]⟩] ∧ t.intf = ⟨0, 0⟩ ∧ t.cap = c.cap := by
  obtain ⟨t, hrun, hthreads, hleft⟩ := resumes_captureReads (c := { c with reply := reply }) hn he hkept
    (capturing clear [s.intf.a, s.intf.b] reply (List.replicate (n + 2) (.move 0 .completes)) c) ⟨_, _, _, rfl⟩ rfl rfl
  exact ⟨t, hrun, hthreads, hleft.intf, hleft.cap⟩

/-- R157: the event falls between the flag reads and the capture reads. -/
theorem run_duringCapture {s : State} (clear : Bool) (d : Drive) (p : Pin) (n : Nat) (hs : s.handle = .opened)
    (he : s.params.triggerSense = .edgeToRef) :
    Host.Core.run Sys2Proof.core (6 + n) (duringCapture clear (eventWord d p) n s) =
      Host.Core.run Sys2Proof.core (n + 2) (capturing clear [s.intf.a, s.intf.b] (.value s.intf.b)
        (List.replicate (n + 2) (.move 0 .completes)) (drivePin p d s)) := by
  have hsteps : 6 + n = n + 2 + 1 + 3 := by omega
  rw [hsteps, run_flagReads clear _ _ _ hs he, Nat.add_comm 2, run_succ (step_eventWhileCapturing ..)]

/-- Settles O59: the event keeps the flags that were read, and its own is acknowledged with them, captured but unreported. -/
theorem captureWindowLosesTrigger : Obligations.CaptureWindowLosesTrigger := by
  intro s u p d clear hs he hclear hu hset
  have hcapture := (raises_of_flag_rises hu hclear hset).2
  obtain rfl : drivePin p d s = u := Host.Outcome.next.inj ((exec_eventOf d p s).symm.trans hu)
  have hkept (q) (hq : flag q s = true) := (drivePin_flagsFollow p d s).keeps hq
  obtain ⟨t, hrun, hthreads, hintf, hcap⟩ := run_captureReads (.value s.intf.b) rfl (c := drivePin p d s) he hkept
  refine ⟨t, reported s, (run_duringCapture clear d p _ hs he).trans hrun, hthreads, ?_, ?_, ?_⟩
  · rintro e hreported rfl
    exact absurd (hclear.symm.trans ((mem_reported s e).1 hreported).1) Bool.false_ne_true
  · exact (congrArg (pinBit · p) hintf).trans (pinBit_noFlags p)
  · exact (congrArg (pinBit · p) hcap).trans hcapture

end Sys2Proof.Machine
